-- ==== Sys2Proof/Word.lean ====
section
/-! DEFINITION. The engine's two word widths (spec 00_scope R8, R9; 10_state R20). -/

namespace Sys2Proof

/-- A 64-bit value: every operand, result and BitSource word (20_memory R51, R53). -/
abbrev Word := BitVec 64

/-- An 8-bit value: the command byte, `BIT_COUNT`, `EXCESS`, `rsp_aux`. -/
abbrev Byte := BitVec 8

end Sys2Proof
end

