-- ==== Sys2Proof/Syntax.lean ====
section
/-! DEFINITION. The commands (30_encoding R71, R75), the illegal bytes' reasons (R77) and the assembler's lines
(R80, R81). -/

namespace Sys2Proof

/-- The output width `N` that `WS` and `WSEL` select (30_encoding R72, 10_state R28). -/
inductive Width where
  | w8 | w16 | w32 | w64
deriving DecidableEq, Repr

/-- One command as it crosses the command port: `cmd_op` and `cmd_data` together (30_encoding R71). -/
structure Command where
  op : Byte
  data : Word
deriving DecidableEq, Repr

/-- The nine commands, one constructor per row of the opcode table (30_encoding R75). NOP and NEXT ignore `cmd_data`
(R73), so they carry none. -/
inductive Instr where
  /-- `NOP` (43_control R200). -/
  | nop
  /-- `CFG.U8` (42_config_next R140). -/
  | cfgU8 (rangeMax : Word)
  /-- `CFG.U16` (42_config_next R140). -/
  | cfgU16 (rangeMax : Word)
  /-- `CFG.U32` (42_config_next R140). -/
  | cfgU32 (rangeMax : Word)
  /-- `CFG.U64` (42_config_next R140). -/
  | cfgU64 (rangeMax : Word)
  /-- `NEXT` (42_config_next R160). -/
  | next
  /-- `LOOKUP` (40_lookup R110). -/
  | lookup (rangeMax : Word)
  /-- `ISPOW2` (40_lookup R111). -/
  | ispow2 (rangeSize : Word)
  /-- `RDREG` (43_control R201). -/
  | rdreg (index : Word)
deriving DecidableEq, Repr

/-- Why a command byte is illegal (30_encoding R77). -/
inductive Illegal where
  /-- `RSV ≠ 0`. -/
  | reservedBits
  /-- `WS ≠ 0` on an operation other than CFG. -/
  | widthSelect
  /-- `OP` in 0x6 .. 0xF. -/
  | operation
deriving DecidableEq, Repr

/-- The register names `rdreg` takes (30_encoding R80). -/
inductive RegName where
  | rangeMax | bitMask | residual | config | status
deriving DecidableEq, Repr

/-- One assembler line: the nine syntaxes of 30_encoding R80 and the pseudo-instructions of R81. Immediates are natural
numbers, as R80 has them; `AsmLine.wf` bounds them. -/
inductive AsmLine where
  | nop
  | cfg (w : Width) (imm : Nat)
  | next
  | lookup (imm : Nat)
  | ispow2 (imm : Nat)
  | rdreg (imm : Nat)
  | rdregNamed (r : RegName)
  /-- `cfg.pow2.uN k`. -/
  | cfgPow2 (w : Width) (k : Nat)
  /-- `cfg.size.uN s`. -/
  | cfgSize (w : Width) (s : Nat)
  | rdres
  | rdcfg
  | rdstat
  /-- `draw.uN r`. -/
  | draw (w : Width) (r : Nat)
deriving DecidableEq, Repr

end Sys2Proof
end

