-- ==== Sys2Proof/WellFormed.lean ====
section
/-! DEFINITION. Which commands a conforming host issues (45_range_mapping R224, 43_control R202) and which assembler
lines assemble (30_encoding R80, R81). Every Instr has an encoding and a meaning, well-formed or not: the engine
answers an operand outside these bounds with an error status. -/

namespace Sys2Proof

/-- The width `N` in bits (30_encoding R72, 10_state R28: `N = 8 · 2^WSEL`). -/
def Width.bits : Width → Nat
  | .w8 => 8
  | .w16 => 16
  | .w32 => 32
  | .w64 => 64

/-- A conforming host's command: a CFG range fits its width (45_range_mapping R224) and RDREG names a register
(43_control R202). -/
def Instr.wf : Instr → Bool
  | .nop => true
  | .cfgU8 r => r.toNat < 2 ^ Width.w8.bits
  | .cfgU16 r => r.toNat < 2 ^ Width.w16.bits
  | .cfgU32 r => r.toNat < 2 ^ Width.w32.bits
  | .cfgU64 r => r.toNat < 2 ^ Width.w64.bits
  | .next => true
  | .lookup _ => true
  | .ispow2 _ => true
  | .rdreg i => i.toNat ≤ 4

/-- An immediate is a natural number below `2^64` (30_encoding R80). -/
def immOk (n : Nat) : Bool := n < 2 ^ 64

/-- A line that assembles: R80's bound on immediates and R81's conditions. A `cfg.uN` immediate wider than `N` bits
assembles (R80). -/
def AsmLine.wf : AsmLine → Bool
  | .nop => true
  | .cfg _ imm => immOk imm
  | .next => true
  | .lookup imm => immOk imm
  | .ispow2 imm => immOk imm
  | .rdreg imm => immOk imm
  | .rdregNamed _ => true
  | .cfgPow2 w k => k ≤ w.bits
  | .cfgSize w s => 1 ≤ s && s ≤ 2 ^ w.bits
  | .rdres => true
  | .rdcfg => true
  | .rdstat => true
  | .draw _ r => immOk r

end Sys2Proof
end

