-- ==== Sys2Proof/Decode.lean ====
section
/-! DEFINITION. The decoder, total on every command (30_encoding R71, R75 to R79), the encoder beside it, and the
opcode table's words. -/

namespace Sys2Proof

/-- `OP = cmd_op[3:0]` (30_encoding R71). -/
def opField (b : Byte) : BitVec 4 := b.extractLsb' 0 4

/-- `WS = cmd_op[5:4]` (30_encoding R71). -/
def wsField (b : Byte) : BitVec 2 := b.extractLsb' 4 2

/-- `RSV = cmd_op[7:6]` (30_encoding R71). -/
def rsvField (b : Byte) : BitVec 2 := b.extractLsb' 6 2

/-- CFG's four rows are one operation with the field `WS` (30_encoding R72, R75). -/
def decodeCfg (ws : BitVec 2) (data : Word) : Instr :=
  match ws.toNat with
  | 0 => .cfgU8 data
  | 1 => .cfgU16 data
  | 2 => .cfgU32 data
  | _ => .cfgU64 data

/-- The operations that take no width select (30_encoding R75). -/
def decodePlain (op : Nat) (data : Word) : Except Illegal Instr :=
  match op with
  | 0 => .ok .nop
  | 2 => .ok .next
  | 3 => .ok (.lookup data)
  | 4 => .ok (.ispow2 data)
  | 5 => .ok (.rdreg data)
  | _ => .error .operation

/-- Decode one command (30_encoding R76, R77). It reads no engine state; the operand is taken whole (R73). -/
def decode (c : Command) : Except Illegal Instr :=
  if rsvField c.op ≠ 0#2 then .error .reservedBits
  else if opField c.op = 1#4 then .ok (decodeCfg (wsField c.op) c.data)
  else if wsField c.op ≠ 0#2 then .error .widthSelect
  else decodePlain (opField c.op).toNat c.data

/-- The command byte of each instruction (30_encoding R75, the `match` column). -/
def opcodeByte : Instr → Byte
  | .nop => 0x00#8
  | .cfgU8 _ => 0x01#8
  | .cfgU16 _ => 0x11#8
  | .cfgU32 _ => 0x21#8
  | .cfgU64 _ => 0x31#8
  | .next => 0x02#8
  | .lookup _ => 0x03#8
  | .ispow2 _ => 0x04#8
  | .rdreg _ => 0x05#8

/-- The operand of each instruction; an assembler emits 0 for NOP and NEXT (30_encoding R80). -/
def operandWord : Instr → Word
  | .nop => 0
  | .cfgU8 r => r
  | .cfgU16 r => r
  | .cfgU32 r => r
  | .cfgU64 r => r
  | .next => 0
  | .lookup x => x
  | .ispow2 x => x
  | .rdreg i => i

/-- The words of an instruction (30_encoding R71, R75, R80). -/
def encode (i : Instr) : Command := ⟨opcodeByte i, operandWord i⟩

/-- An opcode-table word as a command: bits 7..0 are `cmd_op`, the bits above are `cmd_data`, and every bit from
`nbits` up is 0 (log 13). -/
def tableCommand (nbits w : Nat) : Command :=
  let v := w % 2 ^ nbits
  ⟨BitVec.ofNat 8 v, BitVec.ofNat 64 (v / 2 ^ 8)⟩

/-- What the decoder reads from an opcode-table word. -/
def decodeTableWord (nbits w : Nat) : Option Instr :=
  match decode (tableCommand nbits w) with
  | .ok i => some i
  | .error _ => none

end Sys2Proof
end

