-- ==== Sys2Proof/Machine/Lookup.lean ====
section
/-! DEFINITION. The combinational bit-width lookup and power-of-two test (40_lookup R100 to R109). -/

namespace Sys2Proof.Machine

/-- The mask generator, its six OR stages (40_lookup R101). -/
def smear (x : Word) : Word :=
  let m := x
  let m := m ||| (m >>> 1)
  let m := m ||| (m >>> 2)
  let m := m ||| (m >>> 4)
  let m := m ||| (m >>> 8)
  let m := m ||| (m >>> 16)
  let m := m ||| (m >>> 32)
  m

/-- The number of one bits among the `n` low bits of `x`. -/
def popCountBelow : Nat → Word → Nat
  | 0, _ => 0
  | n + 1, x => popCountBelow n x + (x.getLsbD n).toNat

/-- The bit count: the number of one bits of `smear x`, 0 for `x = 0` (40_lookup R102, R107). -/
def bitCountOf (x : Word) : Nat := popCountBelow 64 (smear x)

/-- The power-of-two test with its wrap at 0 (40_lookup R108, decision D6). -/
def isPow2 (s : Word) : Bool :=
  let t := s - 1
  smear t == t

/-- The 64-bit de Bruijn constant (40_lookup R106, decision D4). -/
def c64 : Word := 0x03F79D71B4CB0A89#64

/-- `TAB64` (40_lookup R106), row by row. -/
def tab64 : List Nat :=
  [1, 48, 2, 57, 49, 28, 3, 61, 58, 50, 42, 38, 29, 17, 4, 62] ++
  [55, 59, 36, 53, 51, 43, 22, 45, 39, 33, 30, 24, 18, 12, 5, 63] ++
  [47, 56, 27, 60, 41, 37, 16, 54, 35, 52, 21, 44, 32, 23, 11, 46] ++
  [26, 40, 15, 34, 20, 31, 10, 25, 14, 19, 9, 13, 8, 7, 6, 64]

/-- The 6-bit table index (40_lookup R105). -/
def deBruijnIndex64 (x : Word) : Nat := ((smear x * c64) >>> 58).toNat

/-- The count as the engine's datapath computes it (40_lookup R105, R107). Only its agreement with `bitCountOf` is
architectural. -/
def deBruijnCount64 (x : Word) : Nat := if x = 0 then 0 else tab64.getD (deBruijnIndex64 x) 0

/-- The 32-bit reference variant's constant (40_lookup R109). -/
def c32 : BitVec 32 := 0x07C4ACDD#32

/-- `TAB32` (40_lookup R109). -/
def tab32 : List Nat :=
  [1, 10, 2, 11, 14, 22, 3, 30, 12, 15, 17, 19, 23, 26, 4, 31] ++
  [9, 13, 21, 29, 16, 18, 25, 8, 20, 28, 24, 7, 27, 6, 5, 32]

/-- The mask generator of the 32-bit variant (40_lookup R101, R109). -/
def smear32 (x : BitVec 32) : BitVec 32 :=
  let m := x
  let m := m ||| (m >>> 1)
  let m := m ||| (m >>> 2)
  let m := m ||| (m >>> 4)
  let m := m ||| (m >>> 8)
  let m := m ||| (m >>> 16)
  m

/-- The count of the 32-bit variant; no engine rule uses it (40_lookup R109). -/
def deBruijnCount32 (x : BitVec 32) : Nat :=
  if x = 0 then 0 else tab32.getD ((smear32 x * c32) >>> 27).toNat 0

end Sys2Proof.Machine
end

