-- ==== Sys2Proof/Config.lean ====
section
/-! DEFINITION. What an implementation fixes and what the spec leaves open (00_scope R8; 93_implementation_defined
I2, I3, I10, I15). The constants have no body: no proof can know their values. -/

namespace Sys2Proof

/-- The engine's build parameters, fixed for its lifetime (00_scope R8, 70_reset R306). `GUARD_LIMIT` is at least 1, so
its predecessor is what is stored. -/
structure Params where
  /-- `DEBUG_GUARD`: the iteration guard is built in. -/
  debugGuard : Bool
  /-- `GUARD_LIMIT - 1`. -/
  guardLimitPred : Nat
deriving DecidableEq, Repr, Inhabited

namespace Config

/-- The parameters of the engine that comes out of reset: open (00_scope R8, decision D17; log 7). -/
opaque params : Params

/-- `ABANDONED_DRAW`: whether the BitSource consumed a word for a request that reset abandoned, one open draw per
abandoned request (70_reset R292, decision D22; log 6). -/
opaque abandonedDraw : Nat → Bool

/-- What `WORD_LATCH` and `CAND` hold once a NEXT has used them (10_state R36, R37: not architectural; 93 I15: any
value; log 4). -/
opaque freeScratch : Nat → Word

end Config

end Sys2Proof
end

