-- ==== Sys2Proof/Machine/State.lean ====
section
/-! DEFINITION. The state of the engine and of its two neighbours' ends of the ports (10_state, 20_memory R55,
30_encoding R70), as plain data, and the state after reset (70_reset R290). -/

namespace Sys2Proof.Machine

/-- `MODE`, the strategy (10_state R27). The codes 6 and 7 are never held (93 I19). -/
inductive Mode where
  | none | const | any | pot | popot | bypass
deriving DecidableEq, Repr

/-- The response status codes (60_exceptions R250). -/
inductive Status where
  | ok | illegalCmd | notConfigured | rangeWidth | corruptState | faulted
deriving DecidableEq, Repr

/-- One response: `rsp_status`, `rsp_data`, `rsp_aux` (30_encoding R74). -/
structure Response where
  status : Status
  data : Word
  aux : Byte
deriving DecidableEq, Repr

/-- `PHASE` (10_state R35, 42_config_next R170). RESPOND holds its response until the host takes it (30_encoding R74). -/
inductive Phase where
  | idle
  | extract
  | srcwait
  | arbitrate
  | respond (r : Response)
deriving DecidableEq, Repr

/-- The width of a BitSource request: `next32()` or `next64()` (20_memory R53, R55). -/
inductive SrcWidth where
  | w32 | w64
deriving DecidableEq, Repr

/-- The engine's architectural registers, "exactly the registers of this table" (10_state R20). -/
structure Regs where
  rangeMax : Word
  bitMask : Word
  residual : Word
  bitCount : Byte
  excess : Byte
  mode : Mode
  wsel : Width
  cfgValid : Bool
  fault : Bool
deriving DecidableEq, Repr

/-- Every register's reset value is 0 (10_state R20, 70_reset R290). -/
def Regs.reset : Regs where
  rangeMax := 0
  bitMask := 0
  residual := 0
  bitCount := 0
  excess := 0
  mode := .none
  wsel := .w8
  cfgValid := false
  fault := false

/-- The whole machine. INVENTORY.md lists each field with the rule that names it. -/
structure State where
  /-- The architectural registers (10_state R20). -/
  regs : Regs
  /-- `ITER` (10_state R34). -/
  iter : Nat
  /-- `PHASE` (10_state R35). -/
  phase : Phase
  /-- `WORD_LATCH` (10_state R36). -/
  wordLatch : Word
  /-- `CAND` (10_state R37). -/
  cand : Word
  /-- `SRC_PENDING`, which is also `src_req` (10_state R38, 20_memory R55). -/
  srcPending : Bool
  /-- `DEBUG_GUARD` and `GUARD_LIMIT`, fixed for the engine's lifetime (00_scope R8, 70_reset R306). -/
  params : Params
  /-- The reset pin (70_reset R290). -/
  rst : Bool
  /-- `rsp_ready`: the host takes responses (30_encoding R74). -/
  rspReady : Bool
  /-- The commands the host presents, one after the other; the head is on the port (30_encoding R70, 70_reset R300). -/
  cmds : List Command
  /-- The BitSource's answers to come, in request order (20_memory R55, R56). -/
  answers : List Word
  /-- The host's record: the responses it has taken, oldest first (the model's own field, log 8). -/
  taken : List Response
  /-- The BitSource's record: the requests issued, oldest first (the model's own field, log 8). -/
  requests : List SrcWidth
  /-- How many free values have been drawn (the model's own field, log 4). -/
  frees : Nat
deriving DecidableEq, Repr

/-- The machine right after reset (70_reset R290, R291): every register at 0, IDLE, nothing pending. No command is
presented and no BitSource answer waits; the parameters are open (logs 5, 7, 8, 9). -/
def State.reset : State where
  regs := Regs.reset
  iter := 0
  phase := .idle
  wordLatch := 0
  cand := 0
  srcPending := false
  params := Config.params
  rst := false
  rspReady := true
  cmds := []
  answers := []
  taken := []
  requests := []
  frees := 0

/-- The states in which the engine has no step: the spec's stuck states, not errors of the engine (log 3). An
agent outside the engine ends each of them. All are safe: no next state is claimed. -/
inductive Fault where
  /-- Raised by step in IDLE when the host presents no command (70_reset R291: the engine waits in IDLE). Safe. -/
  | awaitCommand
  /-- Raised by step in RESPOND while the host does not take the response (70_reset R301). Safe. -/
  | awaitResponseTaken
  /-- Raised by step in SRCWAIT while the BitSource does not answer, or answers no pending request (70_reset R302, R292).
  Safe. -/
  | awaitBitSource
deriving DecidableEq, Repr

/-- Why a step has no meaning. No arm of exec raises this one. -/
inductive Refusal where
  /-- Raised by an arm of exec whose instruction has no meaning yet; none is left. Safe. -/
  | notModelled (mnemonic : String)
deriving DecidableEq, Repr

end Sys2Proof.Machine
end

