-- ==== Sys2Proof/Machine/Operands.lean ====
section
/-! DEFINITION. Operand forms and encoded values: the width select (30_encoding R72), the mode and status codes
(10_state R27, 60_exceptions R250), the register views RDREG reads (10_state R31, R32; 43_control R202) and the request
width (20_memory R57). -/

namespace Sys2Proof.Machine

/-- The largest value of the output width, `2^N - 1` (42_config_next R140). -/
def widthMax (w : Width) : Nat := 2 ^ w.bits - 1

/-- The code of a width in `WS` and `WSEL` (30_encoding R72, 10_state R28). -/
def widthCode : Width → BitVec 2
  | .w8 => 0
  | .w16 => 1
  | .w32 => 2
  | .w64 => 3

/-- The code of a mode in `MODE` (10_state R27). -/
def modeCode : Mode → BitVec 3
  | .none => 0
  | .const => 1
  | .any => 2
  | .pot => 3
  | .popot => 4
  | .bypass => 5

/-- The code on `rsp_status` (60_exceptions R250). -/
def statusCode : Status → BitVec 4
  | .ok => 0
  | .illegalCmd => 1
  | .notConfigured => 2
  | .rangeWidth => 3
  | .corruptState => 4
  | .faulted => 5

/-- The modes that use the residual buffer (41_buffer, 42_config_next R163). -/
def Mode.buffered : Mode → Bool
  | .any => true
  | .pot => true
  | .popot => true
  | .none => false
  | .const => false
  | .bypass => false

/-- The `CONFIG` view, by the bit positions of 10_state R31: BIT_COUNT [7:0], EXCESS [15:8], MODE [18:16], WSEL [21:20],
CFG_VALID [24]; every other bit reads 0 (log 2). -/
def configView (r : Regs) : Word :=
  0#39 ++ BitVec.ofBool r.cfgValid ++ 0#2 ++ widthCode r.wsel ++ 0#1 ++ modeCode r.mode ++ r.excess ++ r.bitCount

/-- The `STATUS` view: FAULT in bit 0 (10_state R32). -/
def statusView (r : Regs) : Word := 0#63 ++ BitVec.ofBool r.fault

/-- The RDREG index map; all 64 bits of the index are compared (43_control R201 to R203). -/
def readRegister (index : Word) (r : Regs) : Option Word :=
  match index.toNat with
  | 0 => some r.rangeMax
  | 1 => some r.bitMask
  | 2 => some r.residual
  | 3 => some (configView r)
  | 4 => some (statusView r)
  | _ => none

/-- The width of the request a configured engine issues: 32 bits in BYPASS at N = 32, else 64 (20_memory R57; log 14). -/
def srcWidth (r : Regs) : SrcWidth :=
  match r.mode, r.wsel with
  | .bypass, .w32 => .w32
  | _, _ => .w64

/-- The word latched from `src_data`: a 32-bit answer is zero-extended and bits [63:32] are ignored (20_memory R55). -/
def latchedWord (w : SrcWidth) (data : Word) : Word :=
  match w with
  | .w64 => data
  | .w32 => (data.setWidth 32).setWidth 64

/-- `zext_8(min(ITER, 255))` (42_config_next R163). -/
def iterAux (iter : Nat) : Byte := BitVec.ofNat 8 (min iter 255)

end Sys2Proof.Machine
end

