-- ==== Sys2Proof/Machine/Flags.lean ====
section
/-! DEFINITION. The conditions the control logic tests: the buffer's one comparison (41_buffer R131), the arbiter's
comparator (42_config_next R163) and the iteration guard (R165). The engine has no condition codes (10_state R39). -/

namespace Sys2Proof

/-- `GUARD_LIMIT`, at least 1 (00_scope R8). -/
def Params.guardLimit (p : Params) : Nat := p.guardLimitPred + 1

namespace Machine

/-- `RESIDUAL > 1`: a complete group is buffered (41_buffer R131). -/
def hasGroup (r : Regs) : Bool := 1 < r.residual.toNat

/-- The arbiter: only mode ANY compares, unsigned, with RANGE_MAX (42_config_next R163). -/
def accepts (r : Regs) (cand : Word) : Bool := r.mode != .any || cand.toNat ≤ r.rangeMax.toNat

/-- The guard fires on a rejected candidate when `ITER >= GUARD_LIMIT` (42_config_next R163, R165). -/
def guardFires (p : Params) (iter : Nat) : Bool := p.debugGuard && p.guardLimit ≤ iter

end Machine

end Sys2Proof
end

