-- ==== Sys2Proof/Machine/Ops.lean ====
section
/-! DEFINITION. The named operations over registers and ports: responding, the error entry (60_exceptions R254, R257,
R261), the BitSource request (20_memory R55) and reset (70_reset R290). There is no return from an error: only reset
clears FAULT (60_exceptions R262). The engine has no memory (20_memory R50). -/

namespace Sys2Proof.Machine

/-- `respond(status, data, aux)`: complete the command; the response is held in RESPOND (00_scope R13, 30_encoding
R74). -/
def respond (status : Status) (data : Word) (aux : Byte) (s : State) : State :=
  { s with phase := .respond ⟨status, data, aux⟩ }

/-- An error response: zero data and aux, no register changed (60_exceptions R257). -/
def respondError (status : Status) (s : State) : State := respond status 0 0 s

/-- `WORD_LATCH` once its word has been used: a free value (10_state R36; log 4). -/
def dropLatch (s : State) : State :=
  { s with wordLatch := Config.freeScratch s.frees, frees := s.frees + 1 }

/-- `WORD_LATCH` and `CAND` after their last use: free values (10_state R36, R37; 93 I15; log 4). -/
def dropScratch (s : State) : State :=
  { s with
    wordLatch := Config.freeScratch s.frees
    cand := Config.freeScratch (s.frees + 1)
    frees := s.frees + 2 }

/-- The response of a NEXT that used `WORD_LATCH` or `CAND`. -/
def retire (status : Status) (data : Word) (aux : Byte) (s : State) : State :=
  respond status data aux (dropScratch s)

/-- `raise CorruptGeneratorState`: `FAULT <- 1; respond(CORRUPT_STATE, 0, 0)` (60_exceptions R254, R257). -/
def raiseCorrupt (s : State) : State :=
  retire .corruptState 0 0 { s with regs := { s.regs with fault := true } }

/-- A NEXT that passed its checks starts: `ITER` is 0 (10_state R34; log 10). -/
def startNext (s : State) : State := { s with iter := 0 }

/-- Issue `SrcDraw`: raise `src_req` with its width and wait (20_memory R55, R57; 42_config_next R170). -/
def issueRequest (s : State) : State :=
  { s with srcPending := true, phase := .srcwait, requests := s.requests ++ [srcWidth s.regs] }

/-- The cycle of `src_ack`: latch the answer and drop the request (20_memory R55). -/
def latchAnswer (data : Word) (s : State) : State :=
  { s with wordLatch := latchedWord (srcWidth s.regs) data, srcPending := false }

/-- The answers left after a reset: when a request is abandoned, whether the BitSource consumed a word for it is open
(70_reset R292; log 6). -/
def answersAfterReset (s : State) : List Word :=
  if s.srcPending && Config.abandonedDraw s.frees then s.answers.tail else s.answers

/-- A cycle with `rst = 1`: every register at its reset value, IDLE, nothing pending, no response (70_reset R290, R292,
R293). The pins are the host's and stay. -/
def resetCycle (s : State) : State :=
  dropScratch { s with
    regs := Regs.reset
    iter := 0
    phase := .idle
    srcPending := false
    answers := answersAfterReset s }

/-- The host takes the response, which completes the command (30_encoding R74, 42_config_next R170). -/
def deliver (r : Response) (s : State) : State := { s with phase := .idle, taken := s.taken ++ [r] }

end Sys2Proof.Machine
end

