-- ==== Sys2Proof/Machine/Configure.lean ====
section
/-! DEFINITION. The strategy classifier and CFG (42_config_next R140 to R147). -/

namespace Sys2Proof.Machine

/-- Strategy classification; the first line that holds decides (42_config_next R141). -/
def classify (w : Width) (r mask : Word) (bc : Nat) : Mode :=
  if r.toNat = widthMax w ∧ (w = .w32 ∨ w = .w64) then .bypass
  else if r = 0 then .const
  else if mask = r ∧ 64 % bc = 0 then .popot
  else if mask = r then .pot
  else .any

/-- `EXCESS` for a bit count: `64 mod b`, and 0 at `b = 0` (42_config_next R143, 10_state R24). -/
def excessOf (bc : Nat) : Nat := if 1 ≤ bc then 64 % bc else 0

/-- The registers a successful CFG leaves (42_config_next R140, R144, R146). FAULT is not written. -/
def configuredRegs (w : Width) (r : Word) (old : Regs) : Regs where
  rangeMax := r
  bitMask := smear r
  residual := 0
  bitCount := BitVec.ofNat 8 (bitCountOf r)
  excess := BitVec.ofNat 8 (excessOf (bitCountOf r))
  mode := classify w r (smear r) (bitCountOf r)
  wsel := w
  cfgValid := true
  fault := old.fault

/-- CFG at width `w` (42_config_next R140): FAULTED first, then RANGE_WIDTH (60_exceptions R258), else configure and answer
with the new mode's code (R145). -/
def configure (w : Width) (r : Word) (s : State) : State :=
  if s.regs.fault then respondError .faulted s
  else if widthMax w < r.toNat then respondError .rangeWidth s
  else
    let regs := configuredRegs w r s.regs
    respond .ok 0 ((modeCode regs.mode).setWidth 8) { s with regs := regs }

/-- `CFG.U8` (42_config_next R140, WS = 0). -/
def execCfgU8 (r : Word) (s : State) : Host.Outcome State Fault Refusal := .next (configure .w8 r s)

/-- `CFG.U16` (42_config_next R140, WS = 1). -/
def execCfgU16 (r : Word) (s : State) : Host.Outcome State Fault Refusal := .next (configure .w16 r s)

/-- `CFG.U32` (42_config_next R140, WS = 2). -/
def execCfgU32 (r : Word) (s : State) : Host.Outcome State Fault Refusal := .next (configure .w32 r s)

/-- `CFG.U64` (42_config_next R140, WS = 3). -/
def execCfgU64 (r : Word) (s : State) : Host.Outcome State Fault Refusal := .next (configure .w64 r s)

end Sys2Proof.Machine
end

