-- ==== Sys2Proof/Machine/Control.lean ====
section
/-! DEFINITION. NOP and RDREG (43_control R200 to R203), and what an illegal byte does (30_encoding R77). -/

namespace Sys2Proof.Machine

/-- `NOP`: `respond(OK, 0, 0)` in every state (43_control R200). -/
def execNop (s : State) : Host.Outcome State Fault Refusal := .next (respond .ok 0 0 s)

/-- `RDREG`: the register, or ILLEGAL_CMD for an index above 4 (43_control R201, R203). -/
def execRdreg (index : Word) (s : State) : Host.Outcome State Fault Refusal :=
  match readRegister index s.regs with
  | some v => .next (respond .ok v 0 s)
  | none => .next (respondError .illegalCmd s)

/-- An illegal command byte is accepted and answered with ILLEGAL_CMD (30_encoding R77, 60_exceptions R251). -/
def illegalCommand (s : State) : State := respondError .illegalCmd s

end Sys2Proof.Machine
end

