-- ==== Sys2Proof/Machine/LookupCommands.lean ====
section
/-! DEFINITION. LOOKUP and ISPOW2 (40_lookup R110, R111): pure functions of the operand, executed in every state. -/

namespace Sys2Proof.Machine

/-- `LOOKUP`: `respond(OK, smear(x), bit_count(x))` (40_lookup R110). -/
def execLookup (x : Word) (s : State) : Host.Outcome State Fault Refusal :=
  .next (respond .ok (smear x) (BitVec.ofNat 8 (bitCountOf x)) s)

/-- `ISPOW2`: `respond(OK, zext_64(is_pow2(s)), 0)` (40_lookup R111). -/
def execIspow2 (x : Word) (s : State) : Host.Outcome State Fault Refusal :=
  .next (respond .ok ((BitVec.ofBool (isPow2 x)).setWidth 64) 0 s)

end Sys2Proof.Machine
end

