-- ==== Sys2Proof/Machine/Buffer.lean ====
section
/-! DEFINITION. The residual-bit buffer protocol (41_buffer R130 to R137). Shifts by 64 or more give 0 (00_scope R12). -/

namespace Sys2Proof.Machine

/-- `b = BIT_COUNT` as a shift amount (41_buffer). -/
def groupBits (r : Regs) : Nat := r.bitCount.toNat

/-- `e = EXCESS` as a shift amount (41_buffer). -/
def excessBits (r : Regs) : Nat := r.excess.toNat

/-- `ExtractBuffered()`: the low group is the candidate and RESIDUAL shifts right by `b` (41_buffer R132). -/
def extractBuffered (s : State) : State :=
  { s with
    cand := s.regs.residual &&& s.regs.bitMask
    regs := { s.regs with residual := s.regs.residual >>> groupBits s.regs } }

/-- The candidate of a refill with the word `w` (41_buffer R133). -/
def refillCandidate (r : Regs) (w : Word) : Word := (w >>> excessBits r) &&& r.bitMask

/-- RESIDUAL after a refill with the word `w`: the groups left, with the sentinel above them (41_buffer R133, R134).
`64 - b - e` is never negative in a state a run reaches (R133; log 16). -/
def refillResidual (r : Regs) (w : Word) : Word :=
  ((w >>> excessBits r) >>> groupBits r) ||| (1#64 <<< (64 - groupBits r - excessBits r))

/-- `ExtractRefill()` once its word is in `WORD_LATCH` (41_buffer R133). The refill is the word's last use, so `WORD_LATCH` is
a free value from here on, also while the same NEXT goes on (10_state R36; log 4). -/
def finishRefill (s : State) : State :=
  dropLatch { s with
    cand := refillCandidate s.regs s.wordLatch
    regs := { s.regs with residual := refillResidual s.regs s.wordLatch } }

end Sys2Proof.Machine
end

