-- ==== Sys2Proof/Machine/Sequencer.lean ====
section
/-! DEFINITION. The control state machine of 42_config_next R170. The phases that wait for nobody (EXTRACT, ARBITRATE)
are collapsed into the step that enters them, as R170's last sentence allows: one model step per BitSource answer. -/

namespace Sys2Proof.Machine

/-- The EXTRACT row of R170: a buffered group, or a request for a fresh word (41_buffer R131). -/
def extractPhase (s : State) : State :=
  if hasGroup s.regs then { extractBuffered s with phase := .arbitrate } else issueRequest s

/-- The ARBITRATE row of R170 on a state whose ITER counts the extraction just made (42_config_next R163, R165). -/
def arbitrateCounted (s : State) : State :=
  if accepts s.regs s.cand then retire .ok s.cand (iterAux s.iter) s
  else if guardFires s.params s.iter then raiseCorrupt s
  else { s with phase := .extract }

/-- The ARBITRATE row of R170: `ITER <- ITER + 1`, then the comparison. -/
def arbitratePhase (s : State) : State := arbitrateCounted { s with iter := s.iter + 1 }

/-- Run the phases that wait for nobody, at most `fuel` of them. -/
def runPhases : Nat → State → State
  | 0, s => s
  | fuel + 1, s =>
    match s.phase with
    | .extract => runPhases fuel (extractPhase s)
    | .arbitrate => runPhases fuel (arbitratePhase s)
    | .idle => s
    | .srcwait => s
    | .respond _ => s

/-- Enough phases for one word: its first candidate's ARBITRATE, 63 buffered groups of two phases each, and the EXTRACT that
asks for the next word (41_buffer R135 with b = 1; log 17). -/
def phaseFuel : Nat := 128

/-- NEXT's loop (42_config_next R163): the sequencer is in EXTRACT (R170); `startNext` has set ITER to 0. -/
def nextBuffered (s : State) : State := runPhases phaseFuel { s with phase := .extract }

/-- The SRCWAIT row of R170 when the answer comes: BYPASS responds with the word (42_config_next R162), a buffered mode
finishes its refill and arbitrates (R163). -/
def takeAnswer (data : Word) (s : State) : State :=
  let s := latchAnswer data s
  match s.regs.mode with
  | .bypass => retire .ok s.wordLatch 0 s
  | .any => runPhases phaseFuel { finishRefill s with phase := .arbitrate }
  | .pot => runPhases phaseFuel { finishRefill s with phase := .arbitrate }
  | .popot => runPhases phaseFuel { finishRefill s with phase := .arbitrate }
  | .const => runPhases phaseFuel { finishRefill s with phase := .arbitrate }
  | .none => runPhases phaseFuel { finishRefill s with phase := .arbitrate }

end Sys2Proof.Machine
end

