-- ==== Sys2Proof/Machine/Next.lean ====
section
/-! DEFINITION. NEXT (42_config_next R160 to R167). -/

namespace Sys2Proof.Machine

/-- NEXT by mode once its checks have passed (42_config_next R160 to R163). MODE = NONE with CFG_VALID = 1 is never held; it
is answered as unconfigured (log 14). -/
def nextByMode (s : State) : State :=
  match s.regs.mode with
  | .const => respond .ok 0 0 s
  | .bypass => issueRequest s
  | .any => nextBuffered s
  | .pot => nextBuffered s
  | .popot => nextBuffered s
  | .none => respondError .notConfigured s

/-- `NEXT`: FAULTED, then NOT_CONFIGURED, then it starts and follows the mode's rule (42_config_next R160, 60_exceptions R258,
10_state R34). A NEXT that needs a
word ends this step in SRCWAIT; `takeAnswer` goes on with it. -/
def execNext (s : State) : Host.Outcome State Fault Refusal :=
  if s.regs.fault then .next (respondError .faulted s)
  else if !s.regs.cfgValid then .next (respondError .notConfigured s)
  else .next (nextByMode (startNext s))

end Sys2Proof.Machine
end

