-- ==== Sys2Proof/Machine/Dispatch.lean ====
section
/-! DEFINITION. One arm per command. -/

namespace Sys2Proof.Machine

/-- What a decoded command does. -/
def exec (i : Instr) (s : State) : Host.Outcome State Fault Refusal :=
  match i with
  | .nop => Sys2Proof.Machine.execNop s
  | .cfgU8 r => Sys2Proof.Machine.execCfgU8 r s
  | .cfgU16 r => Sys2Proof.Machine.execCfgU16 r s
  | .cfgU32 r => Sys2Proof.Machine.execCfgU32 r s
  | .cfgU64 r => Sys2Proof.Machine.execCfgU64 r s
  | .next => Sys2Proof.Machine.execNext s
  | .lookup x => Sys2Proof.Machine.execLookup x s
  | .ispow2 x => Sys2Proof.Machine.execIspow2 x s
  | .rdreg n => Sys2Proof.Machine.execRdreg n s

end Sys2Proof.Machine
end

