-- ==== Sys2Proof/Machine/Cycle.lean ====
section
/-! DEFINITION. What one step does in each phase the engine can rest in (42_config_next R170): accepting a command,
taking a BitSource answer, handing over the response. -/

namespace Sys2Proof.Machine

/-- Decode and execute an accepted command; an illegal byte is answered (30_encoding R76, R77). -/
def acceptCommand (c : Command) (s : State) : Host.Outcome State Fault Refusal :=
  match decode c with
  | .ok i => exec i s
  | .error _ => .next (illegalCommand s)

/-- IDLE: `cmd_ready = 1`; the presented command is consumed on acceptance (30_encoding R71, 20_memory R63). -/
def idleStep (s : State) : Host.Outcome State Fault Refusal :=
  match s.cmds with
  | [] => .fault .awaitCommand
  | c :: rest => acceptCommand c { s with cmds := rest }

/-- SRCWAIT: wait for the BitSource; an answer while nothing is pending is ignored (20_memory R55, 70_reset R292, R302). -/
def srcwaitStep (s : State) : Host.Outcome State Fault Refusal :=
  match s.srcPending, s.answers with
  | true, w :: rest => .next (takeAnswer w { s with answers := rest })
  | true, [] => .fault .awaitBitSource
  | false, _ => .fault .awaitBitSource

/-- RESPOND: held until the host takes it (30_encoding R74, 70_reset R301). -/
def respondStep (r : Response) (s : State) : Host.Outcome State Fault Refusal :=
  if s.rspReady then .next (deliver r s) else .fault .awaitResponseTaken

/-- A step with `rst = 0`, by phase. EXTRACT and ARBITRATE are left within the step that enters them; a state given in one
of them goes on from there. -/
def phaseStep (s : State) : Host.Outcome State Fault Refusal :=
  match s.phase with
  | .idle => idleStep s
  | .srcwait => srcwaitStep s
  | .respond r => respondStep r s
  | .extract => .next (runPhases phaseFuel s)
  | .arbitrate => .next (runPhases phaseFuel s)

/-- Put a command on the command port of an engine that is ready for it. -/
def presentFirst (c : Command) (s : State) : State :=
  { s with rst := false, phase := .idle, cmds := c :: s.cmds }

end Sys2Proof.Machine
end

