-- ==== Sys2Proof/Machine/Step.lean ====
section
/-! DEFINITION. One step of the machine. -/

namespace Sys2Proof.Machine

/-- One step: a reset cycle takes precedence over everything (70_reset R290, R293; 60_exceptions R258), else the phase's
step. -/
def step (s : State) : Host.Outcome State Fault Refusal :=
  if s.rst then .next (resetCycle s) else phaseStep s

/-- `s` with the opcode-table word `w` as the command the next step accepts (log 13). The engine fetches nothing; this stands
for the host presenting a command. -/
def State.withFetchWord (s : State) (nbits w : Nat) : State := presentFirst (tableCommand nbits w) s

end Sys2Proof.Machine
end

