-- ==== Sys2Proof/Machine/Assembler.lean ====
section
/-! DEFINITION. The assembler of 30_encoding R80 to R82: lines to commands, and text to lines. What R80 does not fix of the
text (white space, the digits' case, empty lines) is log 15. -/

namespace Sys2Proof.Machine

/-- CFG at a width (30_encoding R72, R75). -/
def cfgInstr (w : Width) (r : Word) : Instr :=
  match w with
  | .w8 => .cfgU8 r
  | .w16 => .cfgU16 r
  | .w32 => .cfgU32 r
  | .w64 => .cfgU64 r

/-- The index of a register name (30_encoding R80). -/
def regIndex : RegName → Word
  | .rangeMax => 0
  | .bitMask => 1
  | .residual => 2
  | .config => 3
  | .status => 4

/-- The instructions a line stands for (30_encoding R80, R81). -/
def expand : AsmLine → List Instr
  | .nop => [.nop]
  | .cfg w imm => [cfgInstr w (BitVec.ofNat 64 imm)]
  | .next => [.next]
  | .lookup imm => [.lookup (BitVec.ofNat 64 imm)]
  | .ispow2 imm => [.ispow2 (BitVec.ofNat 64 imm)]
  | .rdreg imm => [.rdreg (BitVec.ofNat 64 imm)]
  | .rdregNamed r => [.rdreg (regIndex r)]
  | .cfgPow2 w k => [cfgInstr w (BitVec.ofNat 64 (2 ^ k - 1))]
  | .cfgSize w s => [cfgInstr w (BitVec.ofNat 64 (s - 1))]
  | .rdres => [.rdreg 2]
  | .rdcfg => [.rdreg 3]
  | .rdstat => [.rdreg 4]
  | .draw w r => [cfgInstr w (BitVec.ofNat 64 r), .next]

/-- The commands of a line, where it assembles (30_encoding R80, R81). -/
def assemble (l : AsmLine) : Option (List Command) :=
  if l.wf then some ((expand l).map encode) else none

/-- White space between the words of a line (log 15). -/
def isBlank (c : Char) : Bool := c == ' ' || c == '\t' || c == '\r'

/-- The words of a line: `word` is the word being read, backwards. -/
def wordsOf : List Char → List Char → List (List Char)
  | word, [] => if word.isEmpty then [] else [word.reverse]
  | word, c :: cs =>
    if isBlank c then
      if word.isEmpty then wordsOf [] cs else word.reverse :: wordsOf [] cs
    else wordsOf (c :: word) cs

/-- `;` starts a comment (30_encoding R80). -/
def stripComment : List Char → List Char
  | [] => []
  | c :: cs => if c == ';' then [] else c :: stripComment cs

/-- The lines of a text: `line` is the line being read, backwards. -/
def linesOf : List Char → List Char → List (List Char)
  | line, [] => [line.reverse]
  | line, c :: cs => if c == '\n' then line.reverse :: linesOf [] cs else linesOf (c :: line) cs

/-- The value of one digit in a base up to 16 (lower case). -/
def digitValue (base : Nat) (c : Char) : Option Nat :=
  let v :=
    if '0' ≤ c ∧ c ≤ '9' then c.toNat - '0'.toNat
    else if 'a' ≤ c ∧ c ≤ 'f' then c.toNat - 'a'.toNat + 10
    else base
  if v < base then some v else none

/-- The number a list of digits stands for. -/
def digitsValue (base : Nat) : Nat → List Char → Option Nat
  | n, [] => some n
  | n, c :: cs =>
    match digitValue base c with
    | some d => digitsValue base (n * base + d) cs
    | none => none

/-- A decimal or `0x` hexadecimal natural number (30_encoding R80). -/
def numberValue : List Char → Option Nat
  | [] => none
  | '0' :: 'x' :: d :: ds => digitsValue 16 0 (d :: ds)
  | d :: ds => digitsValue 10 0 (d :: ds)

/-- The lines of one word (30_encoding R80, R81). -/
def plainLines : List (List Char × AsmLine) := [
  ("nop".toList, .nop), ("next".toList, .next),
  ("rdres".toList, .rdres), ("rdcfg".toList, .rdcfg), ("rdstat".toList, .rdstat)]

/-- `uN`, the width's suffix in a mnemonic (30_encoding R80). -/
def widthSuffixes : List (List Char × Width) := [
  ("u8".toList, .w8), ("u16".toList, .w16), ("u32".toList, .w32), ("u64".toList, .w64)]

/-- The width lines at one width: `cfg.uN`, `cfg.pow2.uN`, `cfg.size.uN`, `draw.uN` (30_encoding R80, R81). -/
def widthLines : List (List Char × (Nat → AsmLine)) :=
  widthSuffixes.flatMap fun p => [
    ("cfg.".toList ++ p.1, .cfg p.2), ("cfg.pow2.".toList ++ p.1, .cfgPow2 p.2),
    ("cfg.size.".toList ++ p.1, .cfgSize p.2), ("draw.".toList ++ p.1, .draw p.2)]

/-- The lines of one word and a number (30_encoding R80, R81). -/
def numberLines : List (List Char × (Nat → AsmLine)) :=
  [("lookup".toList, .lookup), ("ispow2".toList, .ispow2), ("rdreg".toList, .rdreg)] ++ widthLines

/-- The register names `rdreg` takes (30_encoding R80). -/
def registerNames : List (List Char × RegName) := [
  ("range_max".toList, .rangeMax), ("bit_mask".toList, .bitMask), ("residual".toList, .residual),
  ("config".toList, .config), ("status".toList, .status)]

/-- A mnemonic with one operand. -/
def operandLine (m operand : List Char) : Option AsmLine :=
  match (if m == "rdreg".toList then registerNames.lookup operand else none) with
  | some r => some (.rdregNamed r)
  | none =>
    match numberLines.lookup m, numberValue operand with
    | some f, some n => some (f n)
    | _, _ => none

/-- Read one line of text: no command on an empty line, one line's commands otherwise; `none` where the line is no line of
R80 or R81. Mnemonics are case-insensitive. -/
def assembleLine (text : List Char) : Option (List Command) :=
  match wordsOf [] ((stripComment text).map Char.toLower) with
  | [] => some []
  | [m] => (plainLines.lookup m).bind assemble
  | [m, operand] => (operandLine m operand).bind assemble
  | _ => none

/-- A program: a list of commands, one command per line, in list order (30_encoding R80, R82). -/
def assembleText (text : String) : Option (List Command) :=
  ((linesOf [] text.toList).mapM assembleLine).map List.flatten

end Sys2Proof.Machine
end

