-- ==== Sys2Proof/Machine/Ports.lean ====
section
/-! DEFINITION. The output pins as functions of the state (30_encoding R70, 20_memory R55, 60_exceptions R260). In a cycle
with `rst = 1` they are 0 (70_reset R290): the engine is then in its reset state (log 11). -/

namespace Sys2Proof.Machine

/-- `cmd_ready`: 1 exactly when PHASE = IDLE and no response is waiting (30_encoding R70, 70_reset R300). A response waits
only in RESPOND. -/
def cmdReady (s : State) : Bool := !s.rst && s.phase == .idle

/-- `cmd_valid`, with `cmd_op` and `cmd_data`: the command on the port (30_encoding R70). -/
def cmdOnPort (s : State) : Option Command := s.cmds.head?

/-- The response on the port; `rsp_valid` is 1 exactly when there is one (30_encoding R70, R74). -/
def rspOnPort (s : State) : Option Response :=
  match s.rst, s.phase with
  | false, .respond r => some r
  | _, _ => none

/-- `rsp_valid` (30_encoding R70). -/
def rspValid (s : State) : Bool := (rspOnPort s).isSome

/-- `rsp_status`, the 4-bit code while a response is presented (30_encoding R70, 60_exceptions R250). -/
def rspStatus (s : State) : Option (BitVec 4) := (rspOnPort s).map fun r => statusCode r.status

/-- `rsp_data` while a response is presented (30_encoding R70). -/
def rspData (s : State) : Option Word := (rspOnPort s).map Response.data

/-- `rsp_aux` while a response is presented (30_encoding R70). -/
def rspAux (s : State) : Option Byte := (rspOnPort s).map Response.aux

/-- `fault_o`: equals FAULT at all times (60_exceptions R260). While `rst = 1` FAULT has its reset value 0 (70_reset R290; log
11). -/
def faultO (s : State) : Bool := s.regs.fault

/-- `src_req` (20_memory R55). -/
def srcReq (s : State) : Bool := !s.rst && s.srcPending

/-- `src_w64` while a request is raised: 1 for a 64-bit word (20_memory R55). -/
def srcW64 (s : State) : Option Bool :=
  if srcReq s then some (srcWidth s.regs == .w64) else none

end Sys2Proof.Machine
end

