-- ==== Sys2Proof/Machine/Environment.lean ====
section
/-! DEFINITION. What the host and the BitSource can do between two steps (70_reset R294, R300 to R303; 20_memory R58; 10_state
R40). No step calls these. -/

namespace Sys2Proof.Machine

/-- The host presents one more command after those it already holds (70_reset R300). -/
def hostPresent (c : Command) (s : State) : State := { s with cmds := s.cmds ++ [c] }

/-- The host drives `rst`. In every cycle with `rst = 1`, the first one too, the registers have their reset values (70_reset
R290), so raising the pin is itself a reset cycle; a step with `rst = 1` is a further one (log 11). -/
def hostReset (level : Bool) (s : State) : State :=
  if level then { resetCycle s with rst := true } else { s with rst := false }

/-- The host drives `rsp_ready` (30_encoding R74, 70_reset R301). -/
def hostReady (level : Bool) (s : State) : State := { s with rspReady := level }

/-- The BitSource's next answer becomes known (20_memory R55, R56). -/
def sourceAnswer (w : Word) (s : State) : State := { s with answers := s.answers ++ [w] }

/-- Another agent takes a word from the BitSource: only while no engine request is outstanding (20_memory R58, 70_reset
R303). -/
def otherAgentDraw (s : State) : Option (Word × State) :=
  if s.srcPending then none
  else
    match s.answers with
    | [] => none
    | w :: rest => some (w, { s with answers := rest })

/-- The BitSource's `save_state()`: the words it has still to give; RESIDUAL is not in it (10_state R40, 20_memory R58,
45_range_mapping R231). -/
def saveSource (s : State) : Option (List Word) := if s.srcPending then none else some s.answers

/-- The BitSource's `restore_from_state()`, only while no engine request is outstanding (20_memory R58, 70_reset R303). -/
def restoreSource (saved : List Word) (s : State) : Option State :=
  if s.srcPending then none else some { s with answers := saved }

end Sys2Proof.Machine
end

