-- ==== Sys2Proof/Machine/RangeMapping.lean ====
section
/-! DEFINITION. The host contract: the Range Mapping Layer (45_range_mapping R220 to R232). Arithmetic is over the
integers. -/

namespace Sys2Proof.Machine

/-- The boundary kinds: lower then upper, Closed or Open (45_range_mapping R221). -/
inductive Boundary where
  | cc | co | oc | oo
deriving DecidableEq, Repr

/-- A typed, boundary-qualified request (45_range_mapping R221). -/
structure Request where
  lower : Int
  upper : Int
  kind : Boundary
  width : Width
  signed : Bool
deriving DecidableEq, Repr

/-- The host's one error (45_range_mapping R223, 60_exceptions R256). -/
inductive HostError where
  | invalidRange
deriving DecidableEq, Repr

/-- What a host keeps of a configured range (45_range_mapping R224, R228). -/
structure Generator where
  loEff : Int
  rangeMax : Nat
  width : Width
  signed : Bool
deriving DecidableEq, Repr

/-- The smallest value of the request's type (45_range_mapping R221). -/
def Request.typeMin (q : Request) : Int := if q.signed then -(2 ^ (q.width.bits - 1)) else 0

/-- The largest value of the request's type (45_range_mapping R221). -/
def Request.typeMax (q : Request) : Int :=
  if q.signed then 2 ^ (q.width.bits - 1) - 1 else 2 ^ q.width.bits - 1

/-- Both bounds are values of the type (45_range_mapping R221). -/
def Request.wf (q : Request) : Bool :=
  q.typeMin ≤ q.lower && q.lower ≤ q.typeMax && q.typeMin ≤ q.upper && q.upper ≤ q.typeMax

/-- 1 for an open lower bound (45_range_mapping R222). -/
def Boundary.lowerShift : Boundary → Int
  | .cc => 0
  | .co => 0
  | .oc => 1
  | .oo => 1

/-- 1 for an open upper bound (45_range_mapping R222). -/
def Boundary.upperShift : Boundary → Int
  | .cc => 0
  | .co => 1
  | .oc => 0
  | .oo => 1

/-- `lo_eff` (45_range_mapping R222). -/
def Request.loEff (q : Request) : Int := q.lower + q.kind.lowerShift

/-- `hi_eff` (45_range_mapping R222). -/
def Request.hiEff (q : Request) : Int := q.upper - q.kind.upperShift

/-- `make_range_generator`: InvalidRange on an empty range, else the effective lower bound and `range_max`
(45_range_mapping R223, R224, R228). -/
def makeGenerator (q : Request) : Except HostError Generator :=
  if q.hiEff < q.loEff then .error .invalidRange
  else .ok ⟨q.loEff, (q.hiEff - q.loEff).toNat, q.width, q.signed⟩

/-- The CFG the host issues: `cmd_op = 0x01 | (WS << 4)` and `range_max` (45_range_mapping R224). -/
def Generator.cfgCommand (g : Generator) : Command :=
  ⟨0x01#8 ||| ((widthCode g.width).setWidth 8 <<< 4), BitVec.ofNat 64 g.rangeMax⟩

/-- The NEXT the host issues for each value (45_range_mapping R228). -/
def nextCommand : Command := ⟨0x02#8, 0⟩

/-- The caller's value for a NEXT result `d`: `lo_eff + d` (45_range_mapping R225, R226). -/
def Generator.value (g : Generator) (d : Word) : Int := g.loEff + d.toNat

/-- The same value as `N`-bit hardware adds it: `(bits(lo_eff) + d) mod 2^N`, read as unsigned or two's-complement signed
(45_range_mapping R225). -/
def Generator.hardwareValue (g : Generator) (d : Word) : Int :=
  let m : Int := 2 ^ g.width.bits
  let u := (g.loEff % m + d.toNat) % m
  if g.signed && m ≤ 2 * u then u - m else u

/-- The one-shot helpers `range_cc/co/oc/oo`: one CFG and one NEXT (45_range_mapping R229). -/
def oneShot (q : Request) : Except HostError (List Command) :=
  match makeGenerator q with
  | .ok g => .ok [g.cfgCommand, nextCommand]
  | .error e => .error e

end Sys2Proof.Machine
end

