-- ==== Sys2Proof/Safety.lean ====
section
/-! DEFINITION. What the spec says holds in every state a run reaches (10_state R22 to R27, R33, R26; 42_config_next R165,
R170), as one invariant, and the words claims use about the buffer and about NEXT. -/

namespace Sys2Proof.Machine

/-- `RESIDUAL = 2^(j·b) + r` with `r < 2^(j·b)`: `j` complete groups under the sentinel (10_state R26). -/
def HoldsGroups (b j : Nat) (residual : Word) : Prop :=
  2 ^ (j * b) ≤ residual.toNat ∧ residual.toNat < 2 ^ (j * b + 1)

/-- The residual invariant of a buffered mode (10_state R26): empty, or `j ≤ G - 1` groups with `G = 64 / b`. -/
def ResidualOk (b : Nat) (residual : Word) : Prop :=
  residual = 0 ∨ ∃ j, j < 64 / b ∧ HoldsGroups b j residual

/-- The registers' invariant (10_state R22 to R27, R33). -/
structure Regs.Inv (r : Regs) : Prop where
  /-- Before any CFG every register has its reset value (10_state R29, R20). -/
  unconfigured : r.cfgValid = false → r = Regs.reset
  /-- `RANGE_MAX ≤ 2^N - 1` (10_state R33). -/
  range : r.cfgValid = true → r.rangeMax.toNat ≤ widthMax r.wsel
  /-- `BIT_MASK = smear(RANGE_MAX)` (10_state R33). -/
  mask : r.cfgValid = true → r.bitMask = smear r.rangeMax
  /-- `BIT_COUNT` is the bit count of RANGE_MAX (10_state R33). -/
  count : r.cfgValid = true → r.bitCount.toNat = bitCountOf r.rangeMax
  /-- `EXCESS` (10_state R33). -/
  excess : r.cfgValid = true → r.excess.toNat = excessOf (bitCountOf r.rangeMax)
  /-- `MODE` (42_config_next R141). -/
  mode : r.cfgValid = true → r.mode = classify r.wsel r.rangeMax (smear r.rangeMax) (bitCountOf r.rangeMax)
  /-- The residual buffer (10_state R26). -/
  buffer : r.mode.buffered = true → ResidualOk (groupBits r) r.residual
  /-- Other modes leave it 0 (10_state R25). -/
  noBuffer : r.mode.buffered = false → r.residual = 0
  /-- FAULT is set only by the guard, so only in mode ANY (60_exceptions R254). -/
  faulted : r.fault = true → r.mode = .any

/-- The whole state's invariant. -/
structure State.Inv (s : State) : Prop where
  regs : s.regs.Inv
  /-- SRC_PENDING exactly in SRCWAIT (10_state R38, 42_config_next R170). -/
  pending : s.srcPending = true ↔ s.phase = .srcwait
  /-- A step never ends in EXTRACT or ARBITRATE (42_config_next R170, collapsed). -/
  notExtract : s.phase ≠ .extract
  notArbitrate : s.phase ≠ .arbitrate
  /-- A request belongs to an unfaulted NEXT of a configured engine in a drawing mode (20_memory R57). -/
  waiting : s.phase = .srcwait → s.regs.cfgValid = true ∧ s.regs.fault = false ∧
    (s.regs.mode = .bypass ∨ s.regs.mode.buffered = true ∧ s.regs.residual.toNat ≤ 1)
  /-- A guarded NEXT that waits has extracted fewer than GUARD_LIMIT candidates (42_config_next R165). -/
  guarded : s.phase = .srcwait → s.regs.mode.buffered = true → s.params.debugGuard = true →
    s.iter < s.params.guardLimit
  /-- While `rst = 1` the engine is in its reset state (70_reset R290). -/
  inReset : s.rst = true → s.regs = Regs.reset ∧ s.phase = .idle ∧ s.iter = 0 ∧ s.srcPending = false
  /-- ITER is 0 until a NEXT has started (70_reset R290, 10_state R34), so a NEXT refused as unconfigured finds it 0. -/
  unstarted : s.regs.cfgValid = false → s.iter = 0
  /-- Error responses carry zeros (30_encoding R74). -/
  errors : ∀ r, s.phase = .respond r → r.status ≠ .ok → r.data = 0 ∧ r.aux = 0

/-- The engine is about to execute the command `i`: idle, out of reset, `i` on the port (70_reset R300). -/
def State.Accepting (s : State) (i : Instr) (rest : List Command) : Prop :=
  s.rst = false ∧ s.phase = .idle ∧ ∃ c, s.cmds = c :: rest ∧ decode c = .ok i

/-- What the host drives and keeps, and the parameters, unchanged (70_reset R306). -/
def SameHost (s t : State) : Prop :=
  t.params = s.params ∧ t.rst = s.rst ∧ t.rspReady = s.rspReady ∧ t.cmds = s.cmds ∧ t.taken = s.taken

/-- All that a step can depend on in a resting state: not the host's and the BitSource's records, not `WORD_LATCH`, `CAND`
and the free-value counter, and ITER only while a NEXT waits (10_state R20, R34, R36, R37). -/
def SameView (s t : State) : Prop :=
  s.regs = t.regs ∧ s.phase = t.phase ∧ s.srcPending = t.srcPending ∧ s.params = t.params ∧ s.rst = t.rst ∧
  s.rspReady = t.rspReady ∧ s.cmds = t.cmds ∧ s.answers = t.answers ∧ (s.phase = .srcwait → s.iter = t.iter)

/-- The registers under another strategy label (42_config_next R168). -/
def relabel (m : Mode) (s : State) : State := { s with regs := { s.regs with mode := m } }

/-- The registers' buffer parameters fit each other: `b = BIT_COUNT` in 1..64, `e = 64 mod b`, the mask is `b` ones (41_buffer,
10_state R23, R24). -/
def BufferParams (r : Regs) : Prop :=
  1 ≤ r.bitCount.toNat ∧ r.bitCount.toNat ≤ 64 ∧ r.excess.toNat = 64 % r.bitCount.toNat ∧
  r.bitMask.toNat = 2 ^ r.bitCount.toNat - 1

/-- The `i`-th candidate taken from one refilled word `w`, 0 being the refill's own (41_buffer R136). -/
def nthCandidate (s : State) (w : Word) (i : Nat) : Word :=
  (extractBuffered^[i] (finishRefill { s with wordLatch := w })).cand

/-- 1 while a command is in progress, 0 in IDLE (20_memory R62). -/
def busy (s : State) : Nat := if s.phase = .idle then 0 else 1

/-- The group at index `i`, `b` bits wide, of a word: bits `[(i+1)·b - 1 : i·b]` (10_state R26, 41_buffer R136). -/
def groupAt (b i : Nat) (w : Word) : Nat := (w.toNat / 2 ^ (i * b)) % 2 ^ b

/-- A run of `n` steps with no fault and no refusal, from `s` to `t`. -/
def Reaches (n : Nat) (s t : State) : Prop :=
  match n with
  | 0 => s = t
  | k + 1 => ∃ u, step s = .next u ∧ Reaches k u t

end Sys2Proof.Machine
end

