-- ==== Sys2Proof/Certificates/Slice0/Obligations.lean ====
section
/-! DEFINITION. The statements for the provers, one per Obligations name; OBLIGATIONS.json lists them with their rules. -/

open Sys2Proof Sys2Proof.Machine

/-! ## Encoding -/

/-- Decoding an encoded instruction gives it back, with every operand at every value; and a decoded command is the encoding of
its instruction, but for the operand NOP and NEXT ignore (30_encoding R71, R73, R75, R80). -/
def Obligations.DecodeEncodeAgree : Prop :=
  (∀ i : Instr, decode (encode i) = .ok i) ∧
  ∀ (c : Command) (i : Instr), decode c = .ok i →
    (encode i).op = c.op ∧ ((encode i).data = c.data ∨ i = .nop ∨ i = .next)

/-- Decoding is row matching: `x & mask = match` selects the row, exactly one row for each legal byte and none for any other.
The nine rows are 30_encoding R75's, written out. -/
def Obligations.DecodeSelectsTheMatchingRow : Prop :=
  let rows : List (Byte × Byte × (Word → Instr)) := [
    (0x00#8, 0xFF#8, fun _ => .nop), (0x01#8, 0xFF#8, .cfgU8), (0x11#8, 0xFF#8, .cfgU16),
    (0x21#8, 0xFF#8, .cfgU32), (0x31#8, 0xFF#8, .cfgU64), (0x02#8, 0xFF#8, fun _ => .next),
    (0x03#8, 0xFF#8, .lookup), (0x04#8, 0xFF#8, .ispow2), (0x05#8, 0xFF#8, .rdreg)]
  (∀ (c : Command) (i : Instr), decode c = .ok i ↔
    ∃ row ∈ rows, c.op &&& row.2.1 = row.1 ∧ row.2.2 c.data = i) ∧
  (∀ c : Command, (∃ i, decode c = .ok i) →
    (rows.filter fun row => c.op &&& row.2.1 == row.1).length = 1) ∧
  ∀ (ws : BitVec 2) (d : Word), decode ⟨0x01#8 ||| (ws.setWidth 8 <<< 4), d⟩ = .ok (decodeCfg ws d)

/-- The bytes of 30_encoding R75 written out: OP in the low four bits, WS above it, RSV = 0 (a sanity statement). -/
def Obligations.WrittenWordsDecode : Prop :=
  decode ⟨0b00000000#8, 0#64⟩ = .ok .nop ∧
  decode ⟨0b00010001#8, 0x594#64⟩ = .ok (.cfgU16 0x594#64) ∧
  decode ⟨0b00110001#8, 0xFFFFFFFFFFFFFFFF#64⟩ = .ok (.cfgU64 0xFFFFFFFFFFFFFFFF#64) ∧
  decode ⟨0b00000010#8, 0#64⟩ = .ok .next ∧
  decode ⟨0b00000011#8, 0x5DC#64⟩ = .ok (.lookup 0x5DC#64) ∧
  decode ⟨0b00000100#8, 0x595#64⟩ = .ok (.ispow2 0x595#64) ∧
  decode ⟨0b00000101#8, 0x100000001#64⟩ = .ok (.rdreg 0x100000001#64) ∧
  decode ⟨0b00010010#8, 7#64⟩ = .error .widthSelect ∧
  decode ⟨0b01000001#8, 7#64⟩ = .error .reservedBits ∧
  decode ⟨0b00000110#8, 0#64⟩ = .error .operation

/-- Operands are taken whole; NOP and NEXT ignore theirs (30_encoding R73). -/
def Obligations.OperandsAreTakenWhole : Prop :=
  ∀ d : Word,
    decode ⟨0x00#8, d⟩ = .ok .nop ∧ decode ⟨0x02#8, d⟩ = .ok .next ∧
    decode ⟨0x01#8, d⟩ = .ok (.cfgU8 d) ∧ decode ⟨0x11#8, d⟩ = .ok (.cfgU16 d) ∧
    decode ⟨0x21#8, d⟩ = .ok (.cfgU32 d) ∧ decode ⟨0x31#8, d⟩ = .ok (.cfgU64 d) ∧
    decode ⟨0x03#8, d⟩ = .ok (.lookup d) ∧ decode ⟨0x04#8, d⟩ = .ok (.ispow2 d) ∧
    decode ⟨0x05#8, d⟩ = .ok (.rdreg d)

/-- Exactly the nine bytes decode: the others have RSV ≠ 0, or an OP above 5, or a WS outside CFG. Such a byte is accepted and
answered ILLEGAL_CMD, with no other effect, whatever the engine holds (30_encoding R77, 60_exceptions R251). -/
def Obligations.IllegalBytesAreAnswered : Prop :=
  let legal : List Byte := [0x00#8, 0x01#8, 0x11#8, 0x21#8, 0x31#8, 0x02#8, 0x03#8, 0x04#8, 0x05#8]
  (∀ c : Command, (∃ i, decode c = .ok i) ↔ c.op ∈ legal) ∧
  (∀ op : Byte, op ∉ legal ↔
    op.extractLsb' 6 2 ≠ 0 ∨ 6 ≤ (op.extractLsb' 0 4).toNat ∨
      op.extractLsb' 0 4 ≠ 1 ∧ op.extractLsb' 4 2 ≠ 0) ∧
  ∀ (s : State) (c : Command) (rest : List Command),
    s.rst = false → s.phase = .idle → s.cmds = c :: rest → c.op ∉ legal →
    step s = .next { s with cmds := rest, phase := .respond ⟨.illegalCmd, 0, 0⟩ }

/-- What a line assembles to: 30_encoding R80's table at the level of lines, the register names 0 to 4, immediates from 2^64 on
refused; R81's pseudo-instructions, with their conditions; the commands decode to the line's instructions; and the text of one
line of each kind (white space is the model's choice, log 15). -/
def Obligations.AssembledLinesDecode : Prop :=
  (assemble .nop = some [⟨0x00#8, 0⟩] ∧ assemble .next = some [⟨0x02#8, 0⟩]) ∧
  (∀ imm, imm < 2 ^ 64 →
    assemble (.cfg .w8 imm) = some [⟨0x01#8, BitVec.ofNat 64 imm⟩] ∧
    assemble (.cfg .w16 imm) = some [⟨0x11#8, BitVec.ofNat 64 imm⟩] ∧
    assemble (.cfg .w32 imm) = some [⟨0x21#8, BitVec.ofNat 64 imm⟩] ∧
    assemble (.cfg .w64 imm) = some [⟨0x31#8, BitVec.ofNat 64 imm⟩] ∧
    assemble (.lookup imm) = some [⟨0x03#8, BitVec.ofNat 64 imm⟩] ∧
    assemble (.ispow2 imm) = some [⟨0x04#8, BitVec.ofNat 64 imm⟩] ∧
    assemble (.rdreg imm) = some [⟨0x05#8, BitVec.ofNat 64 imm⟩]) ∧
  (∀ imm, 2 ^ 64 ≤ imm → ∀ w,
    assemble (.cfg w imm) = none ∧ assemble (.lookup imm) = none ∧ assemble (.ispow2 imm) = none ∧
    assemble (.rdreg imm) = none ∧ assemble (.draw w imm) = none) ∧
  (assemble (.rdregNamed .rangeMax) = some [⟨0x05#8, 0⟩] ∧ assemble (.rdregNamed .bitMask) = some [⟨0x05#8, 1⟩] ∧
    assemble (.rdregNamed .residual) = some [⟨0x05#8, 2⟩] ∧ assemble (.rdregNamed .config) = some [⟨0x05#8, 3⟩] ∧
    assemble (.rdregNamed .status) = some [⟨0x05#8, 4⟩]) ∧
  (∀ w k, (k ≤ w.bits → assemble (.cfgPow2 w k) = assemble (.cfg w (2 ^ k - 1))) ∧
    (w.bits < k → assemble (.cfgPow2 w k) = none)) ∧
  (∀ w n, (1 ≤ n → n ≤ 2 ^ w.bits → assemble (.cfgSize w n) = assemble (.cfg w (n - 1))) ∧
    (n = 0 ∨ 2 ^ w.bits < n → assemble (.cfgSize w n) = none)) ∧
  (assemble .rdres = some [⟨0x05#8, 2⟩] ∧ assemble .rdcfg = some [⟨0x05#8, 3⟩] ∧ assemble .rdstat = some [⟨0x05#8, 4⟩]) ∧
  (∀ w r, r < 2 ^ 64 → ∃ a, assemble (.cfg w r) = some a ∧ assemble (.draw w r) = some (a ++ [⟨0x02#8, 0⟩])) ∧
  (∀ l cs, assemble l = some cs → cs.map decode = (expand l).map .ok) ∧
  assembleText "nop ; none\nCFG.U8 7\ncfg.u16 0x594\ncfg.u32 3\ncfg.u64 4\nnext" =
    some [⟨0x00#8, 0⟩, ⟨0x01#8, 7⟩, ⟨0x11#8, 0x594⟩, ⟨0x21#8, 3⟩, ⟨0x31#8, 4⟩, ⟨0x02#8, 0⟩] ∧
  assembleText "lookup 5\nispow2 6\nrdreg 1\nrdreg range_max\nrdreg bit_mask\nrdreg residual\nrdreg config\nrdreg status" =
    some [⟨0x03#8, 5⟩, ⟨0x04#8, 6⟩, ⟨0x05#8, 1⟩, ⟨0x05#8, 0⟩, ⟨0x05#8, 1⟩, ⟨0x05#8, 2⟩, ⟨0x05#8, 3⟩, ⟨0x05#8, 4⟩] ∧
  assembleText "cfg.pow2.u8 3\ncfg.size.u16 5\nrdres\nrdcfg\nrdstat\ndraw.u32 9" =
    some [⟨0x01#8, 7⟩, ⟨0x11#8, 4⟩, ⟨0x05#8, 2⟩, ⟨0x05#8, 3⟩, ⟨0x05#8, 4⟩, ⟨0x21#8, 9⟩, ⟨0x02#8, 0⟩] ∧
  assembleText "lookup 18446744073709551616" = none

/-! ## The lookup unit -/

/-- Bit `i` of `smear x` is 1 exactly when some bit `j ≥ i` of `x` is 1 (40_lookup R101). -/
def Obligations.SmearFillsBelowHighestBit : Prop :=
  ∀ (x : Word) (i : Nat), i < 64 →
    ((smear x).getLsbD i = true ↔ ∃ j, i ≤ j ∧ j < 64 ∧ x.getLsbD j = true)

/-- The bit count: the one bits of the mask, 0 for 0, one more than the highest set bit's index otherwise; its range and
every value of it (40_lookup R102, R104). -/
def Obligations.BitCountIsHighestBitPlusOne : Prop :=
  (∀ x : Word, bitCountOf x = (List.range 64).countP fun i => (smear x).getLsbD i) ∧
  (∀ x : Word, (bitCountOf x = 0 ↔ x = 0) ∧ bitCountOf x ≤ 64 ∧ (smear x).toNat = 2 ^ bitCountOf x - 1) ∧
  (∀ x : Word, x ≠ 0 → bitCountOf x = Nat.log2 x.toNat + 1) ∧
  ∀ k, 1 ≤ k → k ≤ 64 →
    bitCountOf (BitVec.ofNat 64 (2 ^ (k - 1))) = k ∧ bitCountOf (BitVec.ofNat 64 (2 ^ k - 1)) = k

/-- `smear x` is the least `2^k - 1` that is at least `x`, and the bit count is that `k` (40_lookup R103). -/
def Obligations.SmearIsLeastMask : Prop :=
  ∀ x : Word,
    (smear x).toNat = 2 ^ bitCountOf x - 1 ∧ x.toNat ≤ (smear x).toNat ∧
    (∀ k : Nat, x.toNat ≤ 2 ^ k - 1 → (smear x).toNat ≤ 2 ^ k - 1 ∧ bitCountOf x ≤ k) ∧
    (1 ≤ x.toNat → 2 ^ (bitCountOf x - 1) ≤ x.toNat ∧ x.toNat ≤ 2 ^ bitCountOf x - 1)

/-- The engine's de Bruijn datapath computes the bit count of every word; its 64 masks hit 64 different table entries
(40_lookup R105, R106, R107). -/
def Obligations.DeBruijnDatapathCountsBits : Prop :=
  (∀ x : Word, deBruijnCount64 x = bitCountOf x) ∧
  ∀ k l, 1 ≤ k → k ≤ 64 → 1 ≤ l → l ≤ 64 →
    deBruijnIndex64 (BitVec.ofNat 64 (2 ^ k - 1)) = deBruijnIndex64 (BitVec.ofNat 64 (2 ^ l - 1)) → k = l

/-- The 32-bit variant gives the mask and count of the 64-bit function (40_lookup R109). -/
def Obligations.NarrowLookupAgrees : Prop :=
  ∀ x : BitVec 32,
    (smear32 x).setWidth 64 = smear (x.setWidth 64) ∧ deBruijnCount32 x = bitCountOf (x.setWidth 64)

/-- The four laws of 40_lookup R112. -/
def Obligations.SmearLaws : Prop :=
  (∀ r : Word, isPow2 (r + 1) = true ↔ smear r = r) ∧
  (∀ r : Word, smear r = r ↔ r.toNat = 2 ^ bitCountOf r - 1) ∧
  (∀ r : Word, 1 ≤ r.toNat → smear r ≠ r →
    (smear r).toNat < 2 * r.toNat ∧ (smear r).toNat + 1 < 2 * (r.toNat + 1)) ∧
  ∀ x : Word, smear (smear x) = smear x ∧ bitCountOf (smear x) = bitCountOf x

/-- LOOKUP, byte 0x03, answers (OK, mask, count) in every state and changes nothing else (40_lookup R110). -/
def Obligations.LookupAnswersMaskAndCount : Prop :=
  ∀ (s : State) (x : Word),
    decode ⟨0x03#8, x⟩ = .ok (.lookup x) ∧
    exec (.lookup x) s =
      .next { s with phase := .respond ⟨.ok, smear x, BitVec.ofNat 8 (bitCountOf x)⟩ }

/-- ISPOW2, byte 0x04, answers 1 exactly for 0 (which stands for 2^64) and the powers of two, in every state, and changes
nothing else (40_lookup R108, R111). -/
def Obligations.Ispow2AnswersExactly : Prop :=
  ∀ (s : State) (x : Word),
    decode ⟨0x04#8, x⟩ = .ok (.ispow2 x) ∧
    ((x = 0 ∨ ∃ k, k < 64 ∧ x.toNat = 2 ^ k) →
      exec (.ispow2 x) s = .next { s with phase := .respond ⟨.ok, 1, 0⟩ }) ∧
    (¬(x = 0 ∨ ∃ k, k < 64 ∧ x.toNat = 2 ^ k) →
      exec (.ispow2 x) s = .next { s with phase := .respond ⟨.ok, 0, 0⟩ })

/-! ## Control -/

/-- NOP, byte 0x00 with any operand, answers (OK, 0, 0) in every state and changes nothing else (43_control R200). -/
def Obligations.NopAnswersOk : Prop :=
  (∀ d : Word, decode ⟨0x00#8, d⟩ = .ok .nop) ∧
  ∀ s : State, exec .nop s = .next { s with phase := .respond ⟨.ok, 0, 0⟩ }

/-- RDREG answers the register its index names, by the bit positions of the two views, and ILLEGAL_CMD for every index above
4; it changes nothing else, in every state (43_control R201 to R203; 10_state R32). The places of CONFIG's fields are the bit
list of 10_state R31, which its concatenation contradicts: the model's choice, log 2. -/
def Obligations.RdregReadsTheNamedRegister : Prop :=
  ∀ s : State,
    exec (.rdreg 0) s = .next { s with phase := .respond ⟨.ok, s.regs.rangeMax, 0⟩ } ∧
    exec (.rdreg 1) s = .next { s with phase := .respond ⟨.ok, s.regs.bitMask, 0⟩ } ∧
    exec (.rdreg 2) s = .next { s with phase := .respond ⟨.ok, s.regs.residual, 0⟩ } ∧
    (∃ v : Word, exec (.rdreg 3) s = .next { s with phase := .respond ⟨.ok, v, 0⟩ } ∧
      v.extractLsb' 0 8 = s.regs.bitCount ∧ v.extractLsb' 8 8 = s.regs.excess ∧
      v.extractLsb' 16 3 = modeCode s.regs.mode ∧ v.extractLsb' 19 1 = 0 ∧
      v.extractLsb' 20 2 = widthCode s.regs.wsel ∧ v.extractLsb' 22 2 = 0 ∧
      v.extractLsb' 24 1 = BitVec.ofBool s.regs.cfgValid ∧ v.extractLsb' 25 39 = 0) ∧
    (∃ v : Word, exec (.rdreg 4) s = .next { s with phase := .respond ⟨.ok, v, 0⟩ } ∧
      v.extractLsb' 0 1 = BitVec.ofBool s.regs.fault ∧ v.extractLsb' 1 63 = 0) ∧
    ∀ i : Word, 4 < i.toNat → exec (.rdreg i) s = .next { s with phase := .respond ⟨.illegalCmd, 0, 0⟩ }

/-! ## CFG -/

/-- CFG at each width `N = 8 · 2^WS`, byte `0x01 | WS << 4`, whole: FAULTED first, then RANGE_WIDTH, each changing
no register; else every configuration register from `range_max`, the buffer emptied, and the new mode's code answered (42_config_next R140, R145, R146), by 10_state R27's
codes. -/
def Obligations.CfgConfiguresOrRefuses : Prop :=
  ∀ (s : State) (w : Width) (r : Word),
    (decode ⟨0x01#8 ||| ((widthCode w).setWidth 8 <<< 4), r⟩ = .ok (cfgInstr w r) ∧
      w.bits = 8 * 2 ^ (widthCode w).toNat) ∧
    (s.regs.fault = true →
      exec (cfgInstr w r) s = .next { s with phase := .respond ⟨.faulted, 0, 0⟩ }) ∧
    (s.regs.fault = false → 2 ^ w.bits - 1 < r.toNat →
      exec (cfgInstr w r) s = .next { s with phase := .respond ⟨.rangeWidth, 0, 0⟩ }) ∧
    (s.regs.fault = false → r.toNat ≤ 2 ^ w.bits - 1 →
      exec (cfgInstr w r) s = .next { s with
        regs := {
          rangeMax := r
          bitMask := smear r
          residual := 0
          bitCount := BitVec.ofNat 8 (bitCountOf r)
          excess := BitVec.ofNat 8 (if bitCountOf r = 0 then 0 else 64 % bitCountOf r)
          mode := classify w r (smear r) (bitCountOf r)
          wsel := w
          cfgValid := true
          fault := false }
        phase := .respond ⟨.ok, 0, (modeCode (classify w r (smear r) (bitCountOf r))).setWidth 8⟩ }) ∧
    (modeCode .none = 0#3 ∧ modeCode .const = 1#3 ∧ modeCode .any = 2#3 ∧ modeCode .pot = 3#3 ∧ modeCode .popot = 4#3 ∧
      modeCode .bypass = 5#3)

/-- Which ranges get which mode (42_config_next R142, with R141's first two lines). -/
def Obligations.ModeByRange : Prop :=
  ∀ (w : Width) (r : Word), r.toNat ≤ 2 ^ w.bits - 1 →
    let m := classify w r (smear r) (bitCountOf r)
    (m = .bypass ↔ r.toNat = 2 ^ w.bits - 1 ∧ (w = .w32 ∨ w = .w64)) ∧
    (m = .const ↔ r = 0) ∧
    (m = .popot ↔ m ≠ .bypass ∧ ∃ k ∈ [1, 2, 4, 8, 16, 32], r.toNat = 2 ^ k - 1) ∧
    (m = .pot ↔ ∃ k, 3 ≤ k ∧ k ≤ 63 ∧ k ∉ [4, 8, 16, 32] ∧ r.toNat = 2 ^ k - 1) ∧
    (m = .any ↔ 2 ≤ r.toNat ∧ ∀ k : Nat, r.toNat ≠ 2 ^ k - 1) ∧
    (m = .any → 2 ≤ bitCountOf r ∧ bitCountOf r ≤ 64) ∧
    (r.toNat = 2 ^ 64 - 1 → m = .bypass) ∧
    (r.toNat = 2 ^ 32 - 1 → (w = .w32 → m = .bypass) ∧ (w = .w64 → m = .popot)) ∧
    (w = .w8 → r.toNat = 255 → m = .popot ∧ bitCountOf r = 8) ∧
    (w = .w16 → r.toNat = 65535 → m = .popot ∧ bitCountOf r = 16) ∧
    (m.buffered = true ∧ bitCountOf r = 64 ↔ w = .w64 ∧ 2 ^ 63 ≤ r.toNat ∧ r.toNat < 2 ^ 64 - 1)

/-- The configuration laws of 10_state R33, with R22 to R24's ranges, in every configured state a run reaches (the premise is
the registers' invariant). -/
def Obligations.ConfigurationLaws : Prop :=
  ∀ r : Regs, r.Inv → r.cfgValid = true →
    r.bitMask = smear r.rangeMax ∧ r.bitMask.toNat = 2 ^ r.bitCount.toNat - 1 ∧
    r.bitCount.toNat ≤ 64 ∧ (r.bitCount = 0 ↔ r.bitMask = 0) ∧
    r.bitCount.toNat = (List.range 64).countP (fun i => r.bitMask.getLsbD i) ∧
    (1 ≤ r.bitCount.toNat → r.excess.toNat = 64 % r.bitCount.toNat) ∧ (r.bitCount = 0 → r.excess = 0) ∧
    r.excess.toNat ≤ 31 ∧
    r.rangeMax.toNat ≤ r.bitMask.toNat ∧ r.rangeMax.toNat ≤ 2 ^ r.wsel.bits - 1 ∧
    (r.mode = .pot ∨ r.mode = .popot → r.bitMask = r.rangeMax) ∧
    (r.mode = .any → r.rangeMax.toNat < r.bitMask.toNat ∧ r.bitMask.toNat ≤ 2 * r.rangeMax.toNat) ∧
    (r.mode ≠ .any → r.mode ≠ .pot → r.excess = 0) ∧
    (r.mode.buffered = true → BufferParams r)

/-! ## NEXT -/

/-- NEXT while faulted, and NEXT before any CFG (60_exceptions R252, R255, R258): the error and nothing else. -/
def Obligations.NextRefusesUnconfiguredOrFaulted : Prop :=
  ∀ s : State,
    (s.regs.fault = true → exec .next s = .next { s with phase := .respond ⟨.faulted, 0, 0⟩ }) ∧
    (s.regs.fault = false → s.regs.cfgValid = false →
      exec .next s = .next { s with phase := .respond ⟨.notConfigured, 0, 0⟩ })

/-- NEXT in CONST answers (OK, 0, 0), with no request and no register changed (42_config_next R161). That the hidden ITER is set
to 0 here too is 10_state R34, with a NEXT starting once its checks have passed (log 10). -/
def Obligations.NextConstAnswersZero : Prop :=
  ∀ s : State, s.regs.fault = false → s.regs.cfgValid = true → s.regs.mode = .const →
    exec .next s = .next { s with iter := 0, phase := .respond ⟨.ok, 0, 0⟩ }

/-- NEXT in BYPASS: one request of the output width, and its answer, zero-extended, is the result; RESIDUAL is neither read
nor written (42_config_next R162, 20_memory R55). That the hidden ITER is set to 0 is 10_state R34, with a NEXT starting once its
checks have passed (log 10). -/
def Obligations.NextBypassReturnsTheRawDraw : Prop :=
  ∀ (s : State) (width : SrcWidth),
    s.regs.fault = false → s.regs.cfgValid = true → s.regs.mode = .bypass →
    (s.regs.wsel = .w32 ∧ width = .w32 ∨ s.regs.wsel = .w64 ∧ width = .w64) →
    exec .next s =
      .next { s with iter := 0, srcPending := true, phase := .srcwait, requests := s.requests ++ [width] } ∧
    ∀ (x : Word) (rest : List Word), s.rst = false →
      ∃ t, step { s with
          iter := 0, srcPending := true, phase := .srcwait, requests := s.requests ++ [width],
          answers := x :: rest } = .next t ∧
        t.phase = .respond
          ⟨.ok, if width = .w32 then BitVec.ofNat 64 (x.toNat % 2 ^ 32) else x, 0⟩ ∧
        t.regs = s.regs ∧ t.srcPending = false ∧ t.answers = rest ∧ t.requests = s.requests ++ [width] ∧
        t.iter = 0 ∧ SameHost s t

/-- NEXT in POT and POPOT with a group buffered answers the low group at once, with one extraction, and no request (41_buffer
R132, 42_config_next R166, R167). -/
def Obligations.NextTakesTheBufferedGroup : Prop :=
  ∀ s : State, s.regs.fault = false → s.regs.cfgValid = true →
    (s.regs.mode = .pot ∨ s.regs.mode = .popot) → 1 < s.regs.residual.toNat →
    ∃ t, exec .next s = .next t ∧
      t.phase = .respond ⟨.ok, s.regs.residual &&& s.regs.bitMask, 1⟩ ∧
      t.regs = { s.regs with residual := s.regs.residual >>> s.regs.bitCount.toNat } ∧
      t.iter = 1 ∧ t.srcPending = s.srcPending ∧ t.answers = s.answers ∧ t.requests = s.requests ∧ SameHost s t

/-- NEXT in a buffered mode with no group buffered asks for a 64-bit word and changes no register (41_buffer R131, R133;
20_memory R57). -/
def Obligations.NextRequestsAWordWhenEmpty : Prop :=
  ∀ s : State, s.regs.fault = false → s.regs.cfgValid = true → s.regs.mode.buffered = true →
    s.regs.residual.toNat ≤ 1 →
    exec .next s = .next { s with
      iter := 0, srcPending := true, phase := .srcwait, requests := s.requests ++ [.w64] }

/-- The refill: the answer's low `e` bits are dropped, the next `b` bits are the candidate and the rest go to RESIDUAL under
the sentinel. POT and POPOT answer it whatever it is, ANY when it is at most RANGE_MAX (41_buffer R133, 42_config_next
R163). -/
def Obligations.RefillAnswersItsCandidate : Prop :=
  ∀ (s : State) (w : Word) (rest : List Word),
    s.rst = false → s.phase = .srcwait → s.srcPending = true → s.regs.mode.buffered = true →
    s.answers = w :: rest →
    let b := s.regs.bitCount.toNat
    let e := s.regs.excess.toNat
    let cand := (w >>> e) &&& s.regs.bitMask
    (s.regs.mode = .any → cand.toNat ≤ s.regs.rangeMax.toNat) →
    ∃ t, step s = .next t ∧
      t.phase = .respond ⟨.ok, cand, BitVec.ofNat 8 (min (s.iter + 1) 255)⟩ ∧
      t.regs = { s.regs with residual := ((w >>> e) >>> b) ||| (1#64 <<< (64 - b - e)) } ∧
      t.iter = s.iter + 1 ∧ t.srcPending = false ∧ t.answers = rest ∧ t.requests = s.requests ∧ SameHost s t

/-- An answer taken in ANY whose candidates are rejected, at every `b`. The word gives `G = 64 / b` candidates, the refill's and
`G - 1` from the buffer. If the guard is due within them and all up to it are above RANGE_MAX, CORRUPT_STATE is raised there and
RESIDUAL is what that extraction left; if all `G` are above RANGE_MAX and the guard is not due, the buffer is used up and one
more word is asked for (42_config_next R163, R164, R165; 41_buffer R136; 60_exceptions R254). -/
def Obligations.RejectedRefillRaisesOrAsksAgain : Prop :=
  ∀ (s : State) (w : Word) (rest : List Word),
    s.rst = false → s.phase = .srcwait → s.srcPending = true → s.regs.mode = .any →
    BufferParams s.regs → s.answers = w :: rest →
    let b := s.regs.bitCount.toNat
    let e := s.regs.excess.toNat
    let G := 64 / b
    let cand := fun i => w.toNat / 2 ^ (e + i * b) % 2 ^ b
    let left := ((w >>> e) >>> b) ||| (1#64 <<< (64 - b - e))
    let due := max 1 (s.params.guardLimit - s.iter)
    (s.params.debugGuard = true → due ≤ G → (∀ i, i < due → s.regs.rangeMax.toNat < cand i) →
      ∃ t, step s = .next t ∧ t.phase = .respond ⟨.corruptState, 0, 0⟩ ∧
        t.regs = { s.regs with residual := left >>> ((due - 1) * b), fault := true } ∧
        t.iter = s.iter + due ∧ t.srcPending = false ∧ t.answers = rest ∧ t.requests = s.requests ∧ SameHost s t) ∧
    ((s.params.debugGuard = false ∨ s.iter + G < s.params.guardLimit) →
      (∀ i, i < G → s.regs.rangeMax.toNat < cand i) →
      ∃ t, step s = .next t ∧ t.phase = .srcwait ∧ t.regs = { s.regs with residual := 1 } ∧
        t.iter = s.iter + G ∧ t.srcPending = true ∧ t.answers = rest ∧ t.requests = s.requests ++ [.w64] ∧ SameHost s t)

/-- NEXT in ANY over a buffer of `j` groups: the first group at most RANGE_MAX is the result, unchanged; the groups before it
are dropped and those after it stay; no request (42_config_next R163, R164). -/
def Obligations.NextAnyReturnsTheFirstAcceptedGroup : Prop :=
  ∀ (s : State) (j i : Nat), s.regs.fault = false → s.regs.cfgValid = true → s.regs.mode = .any →
    BufferParams s.regs →
    let b := s.regs.bitCount.toNat
    let res := s.regs.residual
    HoldsGroups b j res → i < j →
    (∀ k, k < i → s.regs.rangeMax.toNat < groupAt b k res) → groupAt b i res ≤ s.regs.rangeMax.toNat →
    (s.params.debugGuard = false ∨ i < s.params.guardLimit) →
    ∃ t, exec .next s = .next t ∧
      t.phase = .respond ⟨.ok, BitVec.ofNat 64 (groupAt b i res), BitVec.ofNat 8 (i + 1)⟩ ∧
      t.regs = { s.regs with residual := res >>> ((i + 1) * b) } ∧
      t.iter = i + 1 ∧ t.srcPending = s.srcPending ∧ t.answers = s.answers ∧ t.requests = s.requests ∧ SameHost s t

/-- NEXT in ANY when every buffered group is rejected and the guard is not due: the buffer is used up, ITER counts the
rejected groups and one word is asked for (42_config_next R163, R164). -/
def Obligations.NextAnyUsesUpTheBufferBeforeRefill : Prop :=
  ∀ (s : State) (j : Nat), s.regs.fault = false → s.regs.cfgValid = true → s.regs.mode = .any →
    BufferParams s.regs →
    let b := s.regs.bitCount.toNat
    let res := s.regs.residual
    HoldsGroups b j res → (∀ k, k < j → s.regs.rangeMax.toNat < groupAt b k res) →
    (s.params.debugGuard = false ∨ j < s.params.guardLimit) →
    ∃ t, exec .next s = .next t ∧ t.phase = .srcwait ∧ t.regs = { s.regs with residual := 1 } ∧
      t.iter = j ∧ t.srcPending = true ∧ t.answers = s.answers ∧ t.requests = s.requests ++ [.w64] ∧ SameHost s t

/-- The iteration guard inside the buffer: GUARD_LIMIT rejected groups raise CORRUPT_STATE, set FAULT, and RESIDUAL keeps what
the last extraction left (42_config_next R165, 60_exceptions R254, R257). -/
def Obligations.GuardStopsNextAtItsLimit : Prop :=
  ∀ (s : State) (j : Nat), s.regs.fault = false → s.regs.cfgValid = true → s.regs.mode = .any →
    BufferParams s.regs →
    let b := s.regs.bitCount.toNat
    let res := s.regs.residual
    let limit := s.params.guardLimit
    HoldsGroups b j res → s.params.debugGuard = true → limit ≤ j →
    (∀ k, k < limit → s.regs.rangeMax.toNat < groupAt b k res) →
    ∃ t, exec .next s = .next t ∧ t.phase = .respond ⟨.corruptState, 0, 0⟩ ∧
      t.regs = { s.regs with residual := res >>> (limit * b), fault := true } ∧
      t.iter = limit ∧ t.srcPending = s.srcPending ∧ t.answers = s.answers ∧ t.requests = s.requests ∧ SameHost s t

/-- One refilled word: the `i`-th candidate is bits `[e + (i+1)·b - 1 : e + i·b]` of it, and after it `G - 1 - i` groups are left
under the sentinel, none exactly after the last (41_buffer R134, R135, R136). -/
def Obligations.RefilledWordIsTakenInGroups : Prop :=
  ∀ (s : State) (w : Word) (i : Nat), BufferParams s.regs →
    let b := s.regs.bitCount.toNat
    let e := s.regs.excess.toNat
    i < 64 / b →
    (nthCandidate s w i).toNat = w.toNat / 2 ^ (e + i * b) % 2 ^ b ∧
    HoldsGroups b (64 / b - 1 - i) (extractBuffered^[i] (finishRefill { s with wordLatch := w })).regs.residual ∧
    (hasGroup (extractBuffered^[i] (finishRefill { s with wordLatch := w })).regs = true ↔ i + 1 < 64 / b) ∧
    64 - b - e = (64 / b - 1) * b

/-- No bias: over all words the BitSource can answer, every choice of values for the `G` candidates of one word is met by the
same number of words, `2^e`. So uniform words make the candidates uniform and independent (42_config_next R164, R172). That the
distribution is stated as this count is log 21. -/
def Obligations.CandidatesAreUnbiased : Prop :=
  ∀ (s : State) (g : Nat → Word), BufferParams s.regs →
    (∀ i, i < 64 / s.regs.bitCount.toNat → (g i).toNat ≤ s.regs.bitMask.toNat) →
    Nat.card { w : Word // ∀ i, i < 64 / s.regs.bitCount.toNat → nthCandidate s w i = g i } =
      2 ^ s.regs.excess.toNat

/-- Every OK result of NEXT is at most RANGE_MAX, which fits the width (42_config_next R171). -/
def Obligations.NextResultsStayInRange : Prop :=
  ∀ (s t : State) (r : Response), s.Inv → s.rst = false →
    ((∃ rest, s.Accepting .next rest) ∨ s.phase = .srcwait) →
    step s = .next t → t.phase = .respond r → r.status = .ok →
    r.data.toNat ≤ s.regs.rangeMax.toNat ∧ s.regs.rangeMax.toNat ≤ 2 ^ s.regs.wsel.bits - 1

/-- With `BIT_MASK = RANGE_MAX` the strategy label makes no difference to NEXT (42_config_next R168). -/
def Obligations.StrategyLabelIsImmaterial : Prop :=
  ∀ (s t : State) (m m' : Mode), m.buffered = true → m'.buffered = true → s.regs.bitMask = s.regs.rangeMax →
    s.rst = false → ((∃ rest, s.Accepting .next rest) ∨ s.phase = .srcwait) → s.regs.fault = false →
    s.regs.cfgValid = true →
    step (relabel m s) = .next t → step (relabel m' s) = .next (relabel m' t)

/-- A stream of `n` NEXTs in POT or POPOT from an empty buffer: the results are the groups of the BitSource's words in order,
`G` from each, every one with one extraction, and ⌈n / G⌉ 64-bit requests are issued (42_config_next R166, R167, R169;
41_buffer R136). -/
def Obligations.PotStreamReturnsGroupsInOrder : Prop :=
  ∀ (s : State) (n : Nat), s.Inv → s.rst = false → s.rspReady = true → s.phase = .idle → s.regs.fault = false →
    (s.regs.mode = .pot ∨ s.regs.mode = .popot) → s.regs.residual = 0 →
    let G := 64 / s.regs.bitCount.toNat
    let words := (n + G - 1) / G
    s.cmds = List.replicate n nextCommand → words ≤ s.answers.length →
    ∃ k t, Reaches k s t ∧ t.phase = .idle ∧ t.cmds = [] ∧
      t.taken = s.taken ++ (List.range n).map (fun i => ⟨.ok, nthCandidate s (s.answers.getD (i / G) 0) (i % G), 1⟩) ∧
      t.requests = s.requests ++ List.replicate words .w64 ∧ t.answers = s.answers.drop words

/-- A guarded NEXT ends: within GUARD_LIMIT answers it has responded (42_config_next R165, 70_reset R311). -/
def Obligations.GuardedNextEnds : Prop :=
  ∀ s : State, s.Inv → s.rst = false → s.params.debugGuard = true →
    ((∃ rest, s.Accepting .next rest) ∨ s.phase = .srcwait) → s.params.guardLimit ≤ s.answers.length →
    ∃ k t r, k ≤ s.params.guardLimit + 1 ∧ Reaches k s t ∧ t.phase = .respond r

/-! ## Errors and FAULT -/

/-- An error response carries zeros and changes no register, issues no request and takes no word; CORRUPT_STATE sets FAULT and
may leave another RESIDUAL, and changes no other register (60_exceptions R257). -/
def Obligations.ErrorsChangeNoRegister : Prop :=
  ∀ (s t : State) (r : Response), s.rst = false → step s = .next t → t.phase = .respond r → r.status ≠ .ok →
    r.data = 0 ∧ r.aux = 0 ∧
    (r.status ≠ .corruptState → t.regs = s.regs ∧ t.requests = s.requests ∧ t.answers = s.answers) ∧
    (r.status = .corruptState → t.regs = { s.regs with fault := true, residual := t.regs.residual })

/-- FAULT is set, and CORRUPT_STATE answered, only by a NEXT in mode ANY of an engine with the guard, after GUARD_LIMIT
extractions exactly, and then both together (60_exceptions R254, 10_state R30). The premise is the model's invariant. -/
def Obligations.OnlyTheGuardSetsFault : Prop :=
  ∀ s t : State, s.Inv → step s = .next t → s.regs.fault = false →
    (t.regs.fault = true ∨ ∃ r, t.phase = .respond r ∧ r.status = .corruptState) →
    s.regs.mode = .any ∧ s.params.debugGuard = true ∧ t.regs.fault = true ∧
    t.phase = .respond ⟨.corruptState, 0, 0⟩ ∧ t.iter = s.params.guardLimit ∧
    ((∃ rest, s.Accepting .next rest) ∨ s.phase = .srcwait)

/-- FAULT stays set until reset; while it is set CFG and NEXT answer FAULTED and a command changes no register and takes no
word; reset clears it (60_exceptions R255, R262; 10_state R30). -/
def Obligations.FaultIsStickyUntilReset : Prop :=
  ∀ s t : State, s.regs.fault = true → step s = .next t →
    (s.rst = true → t.regs.fault = false) ∧
    (s.rst = false → t.regs.fault = true) ∧
    (s.rst = false → s.phase = .idle →
      t.regs = s.regs ∧ t.requests = s.requests ∧ t.answers = s.answers ∧
      ∀ (i : Instr) (rest : List Command), s.Accepting i rest →
        (i = .next ∨ ∃ w r, i = cfgInstr w r) → t.phase = .respond ⟨.faulted, 0, 0⟩)

/-! ## The machine as a whole -/

/-- A step runs the decoded command: idle and out of reset, with a legal command on the port, the step is that instruction's
`exec` on the state with the command taken off the port (30_encoding R71, R76; 70_reset R300). -/
def Obligations.StepRunsTheDecodedInstruction : Prop :=
  ∀ (s : State) (c : Command) (rest : List Command) (i : Instr),
    s.rst = false → s.phase = .idle → s.cmds = c :: rest → decode c = .ok i →
    step s = exec i { s with cmds := rest }

/-- A step has no next state exactly in three waits: a response not taken and a BitSource that does not answer, where 70_reset
R301 and R302 say that a model has no further step, and no command in IDLE (R291), where that the step faults is the model's own
choice (log 3). Nothing is refused. -/
def Obligations.StepStopsOnlyInWaits : Prop :=
  ∀ s : State,
    (step s = .fault .awaitCommand ↔ s.rst = false ∧ s.phase = .idle ∧ s.cmds = []) ∧
    (step s = .fault .awaitResponseTaken ↔ s.rst = false ∧ (∃ r, s.phase = .respond r) ∧ s.rspReady = false) ∧
    (step s = .fault .awaitBitSource ↔
      s.rst = false ∧ s.phase = .srcwait ∧ (s.srcPending = false ∨ s.answers = [])) ∧
    ∀ f, step s ≠ .refused f

/-- The response is held until the host takes it; taking it completes the command and changes nothing else (30_encoding R74,
70_reset R301). -/
def Obligations.ResponseIsHeldUntilTaken : Prop :=
  ∀ (s : State) (r : Response), s.rst = false → s.phase = .respond r →
    rspOnPort s = some r ∧
    (s.rspReady = true → step s = .next { s with phase := .idle, taken := s.taken ++ [r] }) ∧
    (s.rspReady = false → step s = .fault .awaitResponseTaken)

/-- A command leaves the port exactly when `cmd_ready` is 1; none is dropped, reordered or overlapped (70_reset R300). -/
def Obligations.CommandsAreTakenOnlyWhenReady : Prop :=
  ∀ s t : State, step s = .next t →
    (cmdReady s = true ↔ s.rst = false ∧ s.phase = .idle) ∧
    (cmdReady s = true → ∃ c, s.cmds = c :: t.cmds) ∧ (cmdReady s = false → t.cmds = s.cmds)

/-- Every accepted command produces exactly one response: in any run without reset, the commands waiting, the one in progress
and the responses taken add up (30_encoding R74, 20_memory R62). -/
def Obligations.OneResponsePerCommand : Prop :=
  ∀ (n : Nat) (s t : State), s.rst = false → Reaches n s t →
    s.cmds.length + busy s + s.taken.length = t.cmds.length + busy t + t.taken.length

/-- BitSource requests: only NEXT issues one, 32 bits wide exactly in BYPASS at N = 32, one at a time; an answer is taken only
while a request is pending (20_memory R55, R57). The premise is the model's invariant. -/
def Obligations.OnlyNextRequestsWords : Prop :=
  ∀ s t : State, s.Inv → s.rst = false → step s = .next t →
    (t.requests ≠ s.requests →
      t.requests = s.requests ++ [if s.regs.mode = .bypass ∧ s.regs.wsel = .w32 then .w32 else .w64] ∧
      t.srcPending = true ∧ t.phase = .srcwait ∧ ((∃ rest, s.Accepting .next rest) ∨ s.phase = .srcwait)) ∧
    (t.answers ≠ s.answers →
      s.phase = .srcwait ∧ s.srcPending = true ∧ ∃ w, s.answers = w :: t.answers)

/-- The registers' only writers are CFG, NEXT and reset, and NEXT writes only RESIDUAL and FAULT (10_state R20, 43_control
R202). The premise is the model's invariant. -/
def Obligations.OnlyCfgNextAndResetWriteRegisters : Prop :=
  ∀ s t : State, s.Inv → step s = .next t → t.regs ≠ s.regs →
    s.rst = true ∨ (∃ w r rest, s.Accepting (cfgInstr w r) rest) ∨
    ((∃ rest, s.Accepting .next rest) ∨ s.phase = .srcwait) ∧
      t.regs = { s.regs with residual := t.regs.residual, fault := t.regs.fault } ∧ s.regs.mode.buffered = true

/-- DEBUG_GUARD and GUARD_LIMIT never change (70_reset R306). -/
def Obligations.ParametersAreFixed : Prop :=
  ∀ s t : State, step s = .next t → t.params = s.params

/-- Words the BitSource has not given yet have no influence: a step is the same whatever answers follow (20_memory R55, R60). -/
def Obligations.LaterAnswersDoNotMatter : Prop :=
  ∀ (s t : State) (more : List Word), s.rst = false → step s = .next t →
    step { s with answers := s.answers ++ more } = .next { t with answers := t.answers ++ more }

/-- The same view and the same stream give the same run: the same responses, the same requests, the same view at the end
(45_range_mapping R230). So nothing depends on WORD_LATCH or CAND between commands (10_state R36, R37). -/
def Obligations.EqualViewsReplayEqually : Prop :=
  ∀ (n : Nat) (s t s' : State), s.Inv → s.rst = false → SameView s t → Reaches n s s' →
    ∃ t' responses requests, Reaches n t t' ∧ SameView s' t' ∧
      s'.taken = s.taken ++ responses ∧ t'.taken = t.taken ++ responses ∧
      s'.requests = s.requests ++ requests ∧ t'.requests = t.requests ++ requests

/-- Save with an empty buffer, restore and the same CFG: the engine's registers and the BitSource's words are as they were at the
save, whatever the engine did between (45_range_mapping R231). That the saved state is the list of words still to come is the
model's own reading (log 19). -/
def Obligations.SaveRestoreWithTheSameCfg : Prop :=
  ∀ (s u v : State) (saved : List Word), s.Inv → s.regs.cfgValid = true → s.regs.fault = false →
    s.regs.residual = 0 → u.regs.fault = false → saveSource s = some saved → restoreSource saved u = some v →
    ∃ t, exec (cfgInstr s.regs.wsel s.regs.rangeMax) v = .next t ∧ t.regs = s.regs ∧ t.answers = s.answers

/-! ## Reset and the invariant -/

/-- Every cycle with `rst = 1`, the first (the host raises the pin) and any further one (a step) (70_reset R290, R292, R293;
60_exceptions R262): every register 0, IDLE, nothing pending, no response given or kept; an abandoned request has cost the
BitSource at most one word; the outputs are 0, and `cmd_ready` is 1 once `rst` is released. FAULT, and `fault_o` with it, is 0 in
the first such cycle already: the model's reading, log 11. That the host's pins and waiting commands stay is log 20. -/
def Obligations.ResetCycleClearsTheEngine : Prop :=
  let cleared := fun s t : State =>
    t.regs = { rangeMax := 0, bitMask := 0, residual := 0, bitCount := 0, excess := 0, mode := .none, wsel := .w8,
               cfgValid := false, fault := false } ∧
    t.phase = .idle ∧ t.iter = 0 ∧ t.srcPending = false ∧ t.rst = true ∧
    t.requests = s.requests ∧ t.params = s.params ∧ t.rspReady = s.rspReady ∧ t.cmds = s.cmds ∧ t.taken = s.taken ∧
    (t.answers = s.answers ∨ s.srcPending = true ∧ t.answers = s.answers.tail) ∧
    cmdReady t = false ∧ rspValid t = false ∧ srcReq t = false ∧ faultO t = false ∧
    cmdReady (hostReset false t) = true
  (∀ s : State, cleared s (hostReset true s)) ∧
  (∀ s : State, s.rst = true → ∃ t, step s = .next t ∧ cleared s t) ∧
  ∀ s t : State, step s = .next t → s.regs.fault = true → t.regs.fault = false → s.rst = true

/-- After reset every register RDREG can name reads 0, and NEXT is not configured (70_reset R291, 60_exceptions R252). -/
def Obligations.RegistersReadZeroAfterReset : Prop :=
  (∀ i : Word, i.toNat ≤ 4 →
    exec (.rdreg i) State.reset = .next { State.reset with phase := .respond ⟨.ok, 0, 0⟩ }) ∧
  exec .next State.reset = .next { State.reset with phase := .respond ⟨.notConfigured, 0, 0⟩ }

/-- The invariant holds after reset. -/
def Obligations.ResetMeetsTheInvariant : Prop := State.reset.Inv

/-- Every step keeps the invariant: the configuration laws, the residual buffer's form, the pending request, the guard's bound,
and no rest in EXTRACT or ARBITRATE (10_state R22 to R27, R33, R38; 42_config_next R165, R170). -/
def Obligations.EveryStepKeepsTheInvariant : Prop :=
  ∀ s t : State, s.Inv → step s = .next t → t.Inv

/-- What the host and the BitSource do between steps keeps the invariant (70_reset R290, R300, R301; 30_encoding R74; 20_memory
R55, R56), and other agents and save and restore reach the BitSource only while no request is outstanding (20_memory R58,
70_reset R303). Two clauses rest on the model's own reading: raising `rst` resets the registers at once (log 11), and the saved
state is the list of words still to come (log 19). -/
def Obligations.OutsideActionsKeepTheInvariant : Prop :=
  ∀ s : State, s.Inv →
    (∀ c, (hostPresent c s).Inv) ∧ (∀ level, (hostReset level s).Inv) ∧ (∀ level, (hostReady level s).Inv) ∧
    (∀ w, (sourceAnswer w s).Inv) ∧
    (∀ w t, otherAgentDraw s = some (w, t) →
      s.srcPending = false ∧ t.Inv ∧ t.regs = s.regs ∧ s.answers = w :: t.answers) ∧
    (∀ saved t, restoreSource saved s = some t →
      s.srcPending = false ∧ t.Inv ∧ t.regs = s.regs ∧ t.answers = saved) ∧
    ∀ saved, saveSource s = some saved → s.srcPending = false ∧ saved = s.answers

/-- The pins: `fault_o` is FAULT at all times; between resets `cmd_ready` and `rsp_valid` are never 1 together, the held
response is on the `rsp_` pins with its status code of 60_exceptions R250, and `src_req` is SRC_PENDING with `src_w64` telling
the width (60_exceptions R260, 70_reset R300, 30_encoding R70, R74; 20_memory R55, R57). -/
def Obligations.OutputsFollowTheState : Prop :=
  (∀ s : State, faultO s = s.regs.fault) ∧
  (∀ s : State, s.rst = false →
    srcReq s = s.srcPending ∧ (cmdReady s = true ↔ s.phase = .idle) ∧
    (rspValid s = true ↔ ∃ r, s.phase = .respond r) ∧ ¬(cmdReady s = true ∧ rspValid s = true) ∧
    (∀ r, s.phase = .respond r →
      rspStatus s = some (statusCode r.status) ∧ rspData s = some r.data ∧ rspAux s = some r.aux) ∧
    (srcW64 s = some false ↔ s.srcPending = true ∧ s.regs.mode = .bypass ∧ s.regs.wsel = .w32) ∧
    (srcW64 s = some true ↔ s.srcPending = true ∧ ¬(s.regs.mode = .bypass ∧ s.regs.wsel = .w32))) ∧
  statusCode .ok = 0#4 ∧ statusCode .illegalCmd = 1#4 ∧ statusCode .notConfigured = 2#4 ∧
  statusCode .rangeWidth = 3#4 ∧ statusCode .corruptState = 4#4 ∧ statusCode .faulted = 5#4

/-! ## The host contract -/

/-- InvalidRange exactly on the empty ranges (45_range_mapping R222, R223). -/
def Obligations.HostRejectsExactlyEmptyRanges : Prop :=
  ∀ q : Request,
    (makeGenerator q = .error .invalidRange ↔ q.hiEff < q.loEff) ∧
    (makeGenerator q = .error .invalidRange ↔
    (q.kind = .cc ∧ q.lower > q.upper) ∨ ((q.kind = .co ∨ q.kind = .oc) ∧ q.lower ≥ q.upper) ∨
    (q.kind = .oo ∧ q.upper - q.lower ≤ 1))

/-- A conforming host's range fits its width, its CFG byte is the width's, and the engine never answers it RANGE_WIDTH
(45_range_mapping R224). -/
def Obligations.HostRangesFitTheirWidth : Prop :=
  ∀ (q : Request) (g : Generator), q.wf = true → makeGenerator q = .ok g →
    (g.rangeMax : Int) = q.hiEff - q.loEff ∧ g.rangeMax ≤ 2 ^ q.width.bits - 1 ∧
    decode g.cfgCommand = .ok (cfgInstr q.width (BitVec.ofNat 64 g.rangeMax)) ∧
    ∀ s : State, s.regs.fault = false → ∃ t a, exec (cfgInstr q.width (BitVec.ofNat 64 g.rangeMax)) s = .next t ∧
      t.phase = .respond ⟨.ok, 0, a⟩ ∧ t.regs.rangeMax.toNat = g.rangeMax ∧ t.regs.wsel = q.width

/-- Adding in `N` bits and reading the sum in the request's type gives the same value (45_range_mapping R225). -/
def Obligations.HostAdderAgrees : Prop :=
  ∀ (q : Request) (g : Generator) (d : Word), q.wf = true → makeGenerator q = .ok g → d.toNat ≤ g.rangeMax →
    g.hardwareValue d = g.value d ∧ q.loEff ≤ g.value d ∧ g.value d ≤ q.hiEff ∧
    q.typeMin ≤ g.value d ∧ g.value d ≤ q.typeMax

/-- From the request to the result: on an engine configured by the host's CFG, every OK result of NEXT maps into the request's
bounds, open ends excluded (45_range_mapping R227). -/
def Obligations.RequestsNeverLeaveTheirBounds : Prop :=
  ∀ (q : Request) (g : Generator) (s t : State) (r : Response), q.wf = true → makeGenerator q = .ok g →
    s.Inv → s.rst = false → s.regs.cfgValid = true → s.regs.rangeMax = BitVec.ofNat 64 g.rangeMax →
    s.regs.wsel = q.width → ((∃ rest, s.Accepting .next rest) ∨ s.phase = .srcwait) →
    step s = .next t → t.phase = .respond r → r.status = .ok →
    (q.kind = .cc → q.lower ≤ g.value r.data ∧ g.value r.data ≤ q.upper) ∧
    (q.kind = .co → q.lower ≤ g.value r.data ∧ g.value r.data < q.upper) ∧
    (q.kind = .oc → q.lower < g.value r.data ∧ g.value r.data ≤ q.upper) ∧
    (q.kind = .oo → q.lower < g.value r.data ∧ g.value r.data < q.upper)

/-! ## NEXT, taking an answer -/

/-- An answer taken in ANY, at every `b`: the first of the word's `G = 64 / b` candidates that is at most RANGE_MAX is the
result, unchanged; those before it are dropped and those after it stay buffered; no further request (42_config_next R163, R164;
41_buffer R136). The guard has not been due at a rejected one. -/
def Obligations.AnswerReturnsTheFirstAcceptedGroup : Prop :=
  ∀ (s : State) (w : Word) (rest : List Word) (i : Nat),
    s.rst = false → s.phase = .srcwait → s.srcPending = true → s.regs.mode = .any →
    BufferParams s.regs → s.answers = w :: rest →
    let b := s.regs.bitCount.toNat
    let e := s.regs.excess.toNat
    let cand := fun i => w.toNat / 2 ^ (e + i * b) % 2 ^ b
    let left := ((w >>> e) >>> b) ||| (1#64 <<< (64 - b - e))
    i < 64 / b → (∀ k, k < i → s.regs.rangeMax.toNat < cand k) → cand i ≤ s.regs.rangeMax.toNat →
    (i = 0 ∨ s.params.debugGuard = false ∨ s.iter + i < s.params.guardLimit) →
    ∃ t, step s = .next t ∧
      t.phase = .respond ⟨.ok, BitVec.ofNat 64 (cand i), BitVec.ofNat 8 (min (s.iter + i + 1) 255)⟩ ∧
      t.regs = { s.regs with residual := left >>> (i * b) } ∧
      t.iter = s.iter + i + 1 ∧ t.srcPending = false ∧ t.answers = rest ∧ t.requests = s.requests ∧ SameHost s t
end

