-- ==== Sys2Proof/Laws/State.lean ====
section
/-! SUPPORT. What each named operation does to each field of State, one lemma per field, so that no later proof unfolds a
record update. -/

namespace Sys2Proof.Machine

section
variable (st : Status) (d : Word) (a : Byte) (s : State)

@[simp] theorem respond_regs : (respond st d a s).regs = s.regs := rfl
@[simp] theorem respond_iter : (respond st d a s).iter = s.iter := rfl
@[simp] theorem respond_phase : (respond st d a s).phase = .respond ⟨st, d, a⟩ := rfl
@[simp] theorem respond_wordLatch : (respond st d a s).wordLatch = s.wordLatch := rfl
@[simp] theorem respond_cand : (respond st d a s).cand = s.cand := rfl
@[simp] theorem respond_srcPending : (respond st d a s).srcPending = s.srcPending := rfl
@[simp] theorem respond_params : (respond st d a s).params = s.params := rfl
@[simp] theorem respond_rst : (respond st d a s).rst = s.rst := rfl
@[simp] theorem respond_rspReady : (respond st d a s).rspReady = s.rspReady := rfl
@[simp] theorem respond_cmds : (respond st d a s).cmds = s.cmds := rfl
@[simp] theorem respond_answers : (respond st d a s).answers = s.answers := rfl
@[simp] theorem respond_taken : (respond st d a s).taken = s.taken := rfl
@[simp] theorem respond_requests : (respond st d a s).requests = s.requests := rfl
@[simp] theorem respond_frees : (respond st d a s).frees = s.frees := rfl

end

section
variable (st : Status) (s : State)

@[simp] theorem respondError_regs : (respondError st s).regs = s.regs := rfl
@[simp] theorem respondError_iter : (respondError st s).iter = s.iter := rfl
@[simp] theorem respondError_phase : (respondError st s).phase = .respond ⟨st, 0, 0⟩ := rfl
@[simp] theorem respondError_wordLatch : (respondError st s).wordLatch = s.wordLatch := rfl
@[simp] theorem respondError_cand : (respondError st s).cand = s.cand := rfl
@[simp] theorem respondError_srcPending : (respondError st s).srcPending = s.srcPending := rfl
@[simp] theorem respondError_params : (respondError st s).params = s.params := rfl
@[simp] theorem respondError_rst : (respondError st s).rst = s.rst := rfl
@[simp] theorem respondError_rspReady : (respondError st s).rspReady = s.rspReady := rfl
@[simp] theorem respondError_cmds : (respondError st s).cmds = s.cmds := rfl
@[simp] theorem respondError_answers : (respondError st s).answers = s.answers := rfl
@[simp] theorem respondError_taken : (respondError st s).taken = s.taken := rfl
@[simp] theorem respondError_requests : (respondError st s).requests = s.requests := rfl
@[simp] theorem respondError_frees : (respondError st s).frees = s.frees := rfl

end

section
variable (s : State)

@[simp] theorem dropLatch_regs : (dropLatch s).regs = s.regs := rfl
@[simp] theorem dropLatch_iter : (dropLatch s).iter = s.iter := rfl
@[simp] theorem dropLatch_phase : (dropLatch s).phase = s.phase := rfl
@[simp] theorem dropLatch_wordLatch : (dropLatch s).wordLatch = Config.freeScratch s.frees := rfl
@[simp] theorem dropLatch_cand : (dropLatch s).cand = s.cand := rfl
@[simp] theorem dropLatch_srcPending : (dropLatch s).srcPending = s.srcPending := rfl
@[simp] theorem dropLatch_params : (dropLatch s).params = s.params := rfl
@[simp] theorem dropLatch_rst : (dropLatch s).rst = s.rst := rfl
@[simp] theorem dropLatch_rspReady : (dropLatch s).rspReady = s.rspReady := rfl
@[simp] theorem dropLatch_cmds : (dropLatch s).cmds = s.cmds := rfl
@[simp] theorem dropLatch_answers : (dropLatch s).answers = s.answers := rfl
@[simp] theorem dropLatch_taken : (dropLatch s).taken = s.taken := rfl
@[simp] theorem dropLatch_requests : (dropLatch s).requests = s.requests := rfl
@[simp] theorem dropLatch_frees : (dropLatch s).frees = s.frees + 1 := rfl

end

section
variable (s : State)

@[simp] theorem startNext_regs : (startNext s).regs = s.regs := rfl
@[simp] theorem startNext_iter : (startNext s).iter = 0 := rfl
@[simp] theorem startNext_phase : (startNext s).phase = s.phase := rfl
@[simp] theorem startNext_wordLatch : (startNext s).wordLatch = s.wordLatch := rfl
@[simp] theorem startNext_cand : (startNext s).cand = s.cand := rfl
@[simp] theorem startNext_srcPending : (startNext s).srcPending = s.srcPending := rfl
@[simp] theorem startNext_params : (startNext s).params = s.params := rfl
@[simp] theorem startNext_rst : (startNext s).rst = s.rst := rfl
@[simp] theorem startNext_rspReady : (startNext s).rspReady = s.rspReady := rfl
@[simp] theorem startNext_cmds : (startNext s).cmds = s.cmds := rfl
@[simp] theorem startNext_answers : (startNext s).answers = s.answers := rfl
@[simp] theorem startNext_taken : (startNext s).taken = s.taken := rfl
@[simp] theorem startNext_requests : (startNext s).requests = s.requests := rfl
@[simp] theorem startNext_frees : (startNext s).frees = s.frees := rfl

end

section
variable (s : State)

@[simp] theorem dropScratch_regs : (dropScratch s).regs = s.regs := rfl
@[simp] theorem dropScratch_iter : (dropScratch s).iter = s.iter := rfl
@[simp] theorem dropScratch_phase : (dropScratch s).phase = s.phase := rfl
@[simp] theorem dropScratch_wordLatch : (dropScratch s).wordLatch = Config.freeScratch s.frees := rfl
@[simp] theorem dropScratch_cand : (dropScratch s).cand = Config.freeScratch (s.frees + 1) := rfl
@[simp] theorem dropScratch_srcPending : (dropScratch s).srcPending = s.srcPending := rfl
@[simp] theorem dropScratch_params : (dropScratch s).params = s.params := rfl
@[simp] theorem dropScratch_rst : (dropScratch s).rst = s.rst := rfl
@[simp] theorem dropScratch_rspReady : (dropScratch s).rspReady = s.rspReady := rfl
@[simp] theorem dropScratch_cmds : (dropScratch s).cmds = s.cmds := rfl
@[simp] theorem dropScratch_answers : (dropScratch s).answers = s.answers := rfl
@[simp] theorem dropScratch_taken : (dropScratch s).taken = s.taken := rfl
@[simp] theorem dropScratch_requests : (dropScratch s).requests = s.requests := rfl
@[simp] theorem dropScratch_frees : (dropScratch s).frees = s.frees + 2 := rfl

end

section
variable (st : Status) (d : Word) (a : Byte) (s : State)

@[simp] theorem retire_regs : (retire st d a s).regs = s.regs := rfl
@[simp] theorem retire_iter : (retire st d a s).iter = s.iter := rfl
@[simp] theorem retire_phase : (retire st d a s).phase = .respond ⟨st, d, a⟩ := rfl
@[simp] theorem retire_wordLatch : (retire st d a s).wordLatch = Config.freeScratch s.frees := rfl
@[simp] theorem retire_cand : (retire st d a s).cand = Config.freeScratch (s.frees + 1) := rfl
@[simp] theorem retire_srcPending : (retire st d a s).srcPending = s.srcPending := rfl
@[simp] theorem retire_params : (retire st d a s).params = s.params := rfl
@[simp] theorem retire_rst : (retire st d a s).rst = s.rst := rfl
@[simp] theorem retire_rspReady : (retire st d a s).rspReady = s.rspReady := rfl
@[simp] theorem retire_cmds : (retire st d a s).cmds = s.cmds := rfl
@[simp] theorem retire_answers : (retire st d a s).answers = s.answers := rfl
@[simp] theorem retire_taken : (retire st d a s).taken = s.taken := rfl
@[simp] theorem retire_requests : (retire st d a s).requests = s.requests := rfl
@[simp] theorem retire_frees : (retire st d a s).frees = s.frees + 2 := rfl

end

section
variable (s : State)

@[simp] theorem raiseCorrupt_regs : (raiseCorrupt s).regs = { s.regs with fault := true } := rfl
@[simp] theorem raiseCorrupt_iter : (raiseCorrupt s).iter = s.iter := rfl
@[simp] theorem raiseCorrupt_phase : (raiseCorrupt s).phase = .respond ⟨.corruptState, 0, 0⟩ := rfl
@[simp] theorem raiseCorrupt_wordLatch : (raiseCorrupt s).wordLatch = Config.freeScratch s.frees := rfl
@[simp] theorem raiseCorrupt_cand : (raiseCorrupt s).cand = Config.freeScratch (s.frees + 1) := rfl
@[simp] theorem raiseCorrupt_srcPending : (raiseCorrupt s).srcPending = s.srcPending := rfl
@[simp] theorem raiseCorrupt_params : (raiseCorrupt s).params = s.params := rfl
@[simp] theorem raiseCorrupt_rst : (raiseCorrupt s).rst = s.rst := rfl
@[simp] theorem raiseCorrupt_rspReady : (raiseCorrupt s).rspReady = s.rspReady := rfl
@[simp] theorem raiseCorrupt_cmds : (raiseCorrupt s).cmds = s.cmds := rfl
@[simp] theorem raiseCorrupt_answers : (raiseCorrupt s).answers = s.answers := rfl
@[simp] theorem raiseCorrupt_taken : (raiseCorrupt s).taken = s.taken := rfl
@[simp] theorem raiseCorrupt_requests : (raiseCorrupt s).requests = s.requests := rfl
@[simp] theorem raiseCorrupt_frees : (raiseCorrupt s).frees = s.frees + 2 := rfl

end

section
variable (s : State)

@[simp] theorem issueRequest_regs : (issueRequest s).regs = s.regs := rfl
@[simp] theorem issueRequest_iter : (issueRequest s).iter = s.iter := rfl
@[simp] theorem issueRequest_phase : (issueRequest s).phase = .srcwait := rfl
@[simp] theorem issueRequest_wordLatch : (issueRequest s).wordLatch = s.wordLatch := rfl
@[simp] theorem issueRequest_cand : (issueRequest s).cand = s.cand := rfl
@[simp] theorem issueRequest_srcPending : (issueRequest s).srcPending = true := rfl
@[simp] theorem issueRequest_params : (issueRequest s).params = s.params := rfl
@[simp] theorem issueRequest_rst : (issueRequest s).rst = s.rst := rfl
@[simp] theorem issueRequest_rspReady : (issueRequest s).rspReady = s.rspReady := rfl
@[simp] theorem issueRequest_cmds : (issueRequest s).cmds = s.cmds := rfl
@[simp] theorem issueRequest_answers : (issueRequest s).answers = s.answers := rfl
@[simp] theorem issueRequest_taken : (issueRequest s).taken = s.taken := rfl
@[simp] theorem issueRequest_requests : (issueRequest s).requests = s.requests ++ [srcWidth s.regs] := rfl
@[simp] theorem issueRequest_frees : (issueRequest s).frees = s.frees := rfl

end

section
variable (w : Word) (s : State)

@[simp] theorem latchAnswer_regs : (latchAnswer w s).regs = s.regs := rfl
@[simp] theorem latchAnswer_iter : (latchAnswer w s).iter = s.iter := rfl
@[simp] theorem latchAnswer_phase : (latchAnswer w s).phase = s.phase := rfl
@[simp] theorem latchAnswer_wordLatch : (latchAnswer w s).wordLatch = latchedWord (srcWidth s.regs) w := rfl
@[simp] theorem latchAnswer_cand : (latchAnswer w s).cand = s.cand := rfl
@[simp] theorem latchAnswer_srcPending : (latchAnswer w s).srcPending = false := rfl
@[simp] theorem latchAnswer_params : (latchAnswer w s).params = s.params := rfl
@[simp] theorem latchAnswer_rst : (latchAnswer w s).rst = s.rst := rfl
@[simp] theorem latchAnswer_rspReady : (latchAnswer w s).rspReady = s.rspReady := rfl
@[simp] theorem latchAnswer_cmds : (latchAnswer w s).cmds = s.cmds := rfl
@[simp] theorem latchAnswer_answers : (latchAnswer w s).answers = s.answers := rfl
@[simp] theorem latchAnswer_taken : (latchAnswer w s).taken = s.taken := rfl
@[simp] theorem latchAnswer_requests : (latchAnswer w s).requests = s.requests := rfl
@[simp] theorem latchAnswer_frees : (latchAnswer w s).frees = s.frees := rfl

end

section
variable (s : State)

@[simp] theorem resetCycle_regs : (resetCycle s).regs = Regs.reset := rfl
@[simp] theorem resetCycle_iter : (resetCycle s).iter = 0 := rfl
@[simp] theorem resetCycle_phase : (resetCycle s).phase = .idle := rfl
@[simp] theorem resetCycle_wordLatch : (resetCycle s).wordLatch = Config.freeScratch s.frees := rfl
@[simp] theorem resetCycle_cand : (resetCycle s).cand = Config.freeScratch (s.frees + 1) := rfl
@[simp] theorem resetCycle_srcPending : (resetCycle s).srcPending = false := rfl
@[simp] theorem resetCycle_params : (resetCycle s).params = s.params := rfl
@[simp] theorem resetCycle_rst : (resetCycle s).rst = s.rst := rfl
@[simp] theorem resetCycle_rspReady : (resetCycle s).rspReady = s.rspReady := rfl
@[simp] theorem resetCycle_cmds : (resetCycle s).cmds = s.cmds := rfl
@[simp] theorem resetCycle_answers : (resetCycle s).answers = answersAfterReset s := rfl
@[simp] theorem resetCycle_taken : (resetCycle s).taken = s.taken := rfl
@[simp] theorem resetCycle_requests : (resetCycle s).requests = s.requests := rfl
@[simp] theorem resetCycle_frees : (resetCycle s).frees = s.frees + 2 := rfl

end

section
variable (r : Response) (s : State)

@[simp] theorem deliver_regs : (deliver r s).regs = s.regs := rfl
@[simp] theorem deliver_iter : (deliver r s).iter = s.iter := rfl
@[simp] theorem deliver_phase : (deliver r s).phase = .idle := rfl
@[simp] theorem deliver_wordLatch : (deliver r s).wordLatch = s.wordLatch := rfl
@[simp] theorem deliver_cand : (deliver r s).cand = s.cand := rfl
@[simp] theorem deliver_srcPending : (deliver r s).srcPending = s.srcPending := rfl
@[simp] theorem deliver_params : (deliver r s).params = s.params := rfl
@[simp] theorem deliver_rst : (deliver r s).rst = s.rst := rfl
@[simp] theorem deliver_rspReady : (deliver r s).rspReady = s.rspReady := rfl
@[simp] theorem deliver_cmds : (deliver r s).cmds = s.cmds := rfl
@[simp] theorem deliver_answers : (deliver r s).answers = s.answers := rfl
@[simp] theorem deliver_taken : (deliver r s).taken = s.taken ++ [r] := rfl
@[simp] theorem deliver_requests : (deliver r s).requests = s.requests := rfl
@[simp] theorem deliver_frees : (deliver r s).frees = s.frees := rfl

end

section
variable (s : State)

@[simp] theorem extractBuffered_regs : (extractBuffered s).regs = { s.regs with residual := s.regs.residual >>> groupBits s.regs } := rfl
@[simp] theorem extractBuffered_iter : (extractBuffered s).iter = s.iter := rfl
@[simp] theorem extractBuffered_phase : (extractBuffered s).phase = s.phase := rfl
@[simp] theorem extractBuffered_wordLatch : (extractBuffered s).wordLatch = s.wordLatch := rfl
@[simp] theorem extractBuffered_cand : (extractBuffered s).cand = s.regs.residual &&& s.regs.bitMask := rfl
@[simp] theorem extractBuffered_srcPending : (extractBuffered s).srcPending = s.srcPending := rfl
@[simp] theorem extractBuffered_params : (extractBuffered s).params = s.params := rfl
@[simp] theorem extractBuffered_rst : (extractBuffered s).rst = s.rst := rfl
@[simp] theorem extractBuffered_rspReady : (extractBuffered s).rspReady = s.rspReady := rfl
@[simp] theorem extractBuffered_cmds : (extractBuffered s).cmds = s.cmds := rfl
@[simp] theorem extractBuffered_answers : (extractBuffered s).answers = s.answers := rfl
@[simp] theorem extractBuffered_taken : (extractBuffered s).taken = s.taken := rfl
@[simp] theorem extractBuffered_requests : (extractBuffered s).requests = s.requests := rfl
@[simp] theorem extractBuffered_frees : (extractBuffered s).frees = s.frees := rfl

end

section
variable (s : State)

@[simp] theorem finishRefill_regs : (finishRefill s).regs = { s.regs with residual := refillResidual s.regs s.wordLatch } := rfl
@[simp] theorem finishRefill_iter : (finishRefill s).iter = s.iter := rfl
@[simp] theorem finishRefill_phase : (finishRefill s).phase = s.phase := rfl
@[simp] theorem finishRefill_wordLatch : (finishRefill s).wordLatch = Config.freeScratch s.frees := rfl
@[simp] theorem finishRefill_cand : (finishRefill s).cand = refillCandidate s.regs s.wordLatch := rfl
@[simp] theorem finishRefill_srcPending : (finishRefill s).srcPending = s.srcPending := rfl
@[simp] theorem finishRefill_params : (finishRefill s).params = s.params := rfl
@[simp] theorem finishRefill_rst : (finishRefill s).rst = s.rst := rfl
@[simp] theorem finishRefill_rspReady : (finishRefill s).rspReady = s.rspReady := rfl
@[simp] theorem finishRefill_cmds : (finishRefill s).cmds = s.cmds := rfl
@[simp] theorem finishRefill_answers : (finishRefill s).answers = s.answers := rfl
@[simp] theorem finishRefill_taken : (finishRefill s).taken = s.taken := rfl
@[simp] theorem finishRefill_requests : (finishRefill s).requests = s.requests := rfl
@[simp] theorem finishRefill_frees : (finishRefill s).frees = s.frees + 1 := rfl

end

section
variable (s : State)

@[simp] theorem hostReset_true_regs : (hostReset true s).regs = Regs.reset := rfl
@[simp] theorem hostReset_true_iter : (hostReset true s).iter = 0 := rfl
@[simp] theorem hostReset_true_phase : (hostReset true s).phase = .idle := rfl
@[simp] theorem hostReset_true_wordLatch : (hostReset true s).wordLatch = Config.freeScratch s.frees := rfl
@[simp] theorem hostReset_true_cand : (hostReset true s).cand = Config.freeScratch (s.frees + 1) := rfl
@[simp] theorem hostReset_true_srcPending : (hostReset true s).srcPending = false := rfl
@[simp] theorem hostReset_true_params : (hostReset true s).params = s.params := rfl
@[simp] theorem hostReset_true_rst : (hostReset true s).rst = true := rfl
@[simp] theorem hostReset_true_rspReady : (hostReset true s).rspReady = s.rspReady := rfl
@[simp] theorem hostReset_true_cmds : (hostReset true s).cmds = s.cmds := rfl
@[simp] theorem hostReset_true_answers : (hostReset true s).answers = answersAfterReset s := rfl
@[simp] theorem hostReset_true_taken : (hostReset true s).taken = s.taken := rfl
@[simp] theorem hostReset_true_requests : (hostReset true s).requests = s.requests := rfl
@[simp] theorem hostReset_true_frees : (hostReset true s).frees = s.frees + 2 := rfl

end

@[simp] theorem hostReset_false (s : State) : hostReset false s = { s with rst := false } := rfl

end Sys2Proof.Machine
end

