-- ==== Sys2Proof/Laws/Ops.lean ====
section
/-! SUPPORT. What the sequencer's shared operations can do, said once: the phases that wait for nobody, one by one and run
together. -/

namespace Sys2Proof.Machine

/-! ### A resting phase stays -/

@[simp] theorem runPhases_zero (s : State) : runPhases 0 s = s := rfl

theorem runPhases_idle {n : Nat} {s : State} (h : s.phase = .idle) : runPhases n s = s := by
  cases n <;> simp [runPhases, h]

theorem runPhases_srcwait {n : Nat} {s : State} (h : s.phase = .srcwait) : runPhases n s = s := by
  cases n <;> simp [runPhases, h]

theorem runPhases_respond {n : Nat} {s : State} {r : Response} (h : s.phase = .respond r) : runPhases n s = s := by
  cases n <;> simp [runPhases, h]

theorem runPhases_extract {n : Nat} {s : State} (h : s.phase = .extract) :
    runPhases (n + 1) s = runPhases n (extractPhase s) := by
  simp [runPhases, h]

theorem runPhases_arbitrate {n : Nat} {s : State} (h : s.phase = .arbitrate) :
    runPhases (n + 1) s = runPhases n (arbitratePhase s) := by
  simp [runPhases, h]

/-! ### One phase -/

/-- EXTRACT either takes a buffered group or asks for a word (41_buffer R131). -/
theorem extractPhase_cases (s : State) :
    (hasGroup s.regs = true ∧ extractPhase s = { extractBuffered s with phase := .arbitrate }) ∨
    (hasGroup s.regs = false ∧ extractPhase s = issueRequest s) := by
  cases h : hasGroup s.regs <;> simp [extractPhase, h]

/-- ARBITRATE accepts, raises or goes on to the next group (42_config_next R163). -/
theorem arbitratePhase_cases (s : State) :
    (accepts s.regs s.cand = true ∧
      arbitratePhase s = retire .ok s.cand (iterAux (s.iter + 1)) { s with iter := s.iter + 1 }) ∨
    (accepts s.regs s.cand = false ∧ guardFires s.params (s.iter + 1) = true ∧
      arbitratePhase s = raiseCorrupt { s with iter := s.iter + 1 }) ∨
    (accepts s.regs s.cand = false ∧ guardFires s.params (s.iter + 1) = false ∧
      arbitratePhase s = { s with iter := s.iter + 1, phase := .extract }) := by
  cases h : accepts s.regs s.cand <;> cases g : guardFires s.params (s.iter + 1) <;>
    simp [arbitratePhase, arbitrateCounted, h, g]

/-! ### Phases run together -/

/-- Whatever one phase keeps, running the phases keeps. -/
theorem runPhases_induct {P : State → State → Prop} (refl : ∀ s, P s s)
    (extract : ∀ s t, s.phase = .extract → P (extractPhase s) t → P s t)
    (arbitrate : ∀ s t, s.phase = .arbitrate → P (arbitratePhase s) t → P s t) :
    ∀ n s, P s (runPhases n s) := by
  intro n
  induction n with
  | zero => exact refl
  | succ n ih =>
    intro s
    cases h : s.phase with
    | extract => rw [runPhases_extract h]; exact extract s _ h (ih _)
    | arbitrate => rw [runPhases_arbitrate h]; exact arbitrate s _ h (ih _)
    | idle => rw [runPhases_idle h]; exact refl s
    | srcwait => rw [runPhases_srcwait h]; exact refl s
    | respond r => rw [runPhases_respond h]; exact refl s

/-- The fields no phase touches: the parameters, the host's pins and records, the answers to come. -/
structure SamePins (s t : State) : Prop where
  params : t.params = s.params
  rst : t.rst = s.rst
  rspReady : t.rspReady = s.rspReady
  cmds : t.cmds = s.cmds
  answers : t.answers = s.answers
  taken : t.taken = s.taken

theorem SamePins.refl (s : State) : SamePins s s := ⟨rfl, rfl, rfl, rfl, rfl, rfl⟩

theorem SamePins.trans {s t u : State} (h : SamePins s t) (k : SamePins t u) : SamePins s u :=
  ⟨k.params.trans h.params, k.rst.trans h.rst, k.rspReady.trans h.rspReady, k.cmds.trans h.cmds,
    k.answers.trans h.answers, k.taken.trans h.taken⟩

theorem extractPhase_samePins (s : State) : SamePins s (extractPhase s) := by
  rcases extractPhase_cases s with ⟨-, h⟩ | ⟨-, h⟩ <;> rw [h] <;> exact ⟨rfl, rfl, rfl, rfl, rfl, rfl⟩

theorem arbitratePhase_samePins (s : State) : SamePins s (arbitratePhase s) := by
  rcases arbitratePhase_cases s with ⟨-, h⟩ | ⟨-, -, h⟩ | ⟨-, -, h⟩ <;> rw [h] <;> exact ⟨rfl, rfl, rfl, rfl, rfl, rfl⟩

theorem runPhases_samePins (n : Nat) (s : State) : SamePins s (runPhases n s) :=
  runPhases_induct (P := SamePins) SamePins.refl
    (fun s _ _ h => (extractPhase_samePins s).trans h)
    (fun s _ _ h => (arbitratePhase_samePins s).trans h) n s

/-- NEXT writes no register but RESIDUAL and FAULT (10_state R20). -/
def SameConfig (s t : State) : Prop :=
  t.regs = { s.regs with residual := t.regs.residual, fault := t.regs.fault }

theorem SameConfig.trans {s t u : State} (h : SameConfig s t) (k : SameConfig t u) : SameConfig s u := by
  unfold SameConfig at *
  rw [k, h]

theorem extractPhase_sameConfig (s : State) : SameConfig s (extractPhase s) := by
  rcases extractPhase_cases s with ⟨-, h⟩ | ⟨-, h⟩ <;> simp [SameConfig, h]

theorem arbitratePhase_sameConfig (s : State) : SameConfig s (arbitratePhase s) := by
  rcases arbitratePhase_cases s with ⟨-, h⟩ | ⟨-, -, h⟩ | ⟨-, -, h⟩ <;> simp [SameConfig, h]

theorem runPhases_sameConfig (n : Nat) (s : State) : SameConfig s (runPhases n s) :=
  runPhases_induct (P := SameConfig) (fun _ => rfl)
    (fun s _ _ h => (extractPhase_sameConfig s).trans h)
    (fun s _ _ h => (arbitratePhase_sameConfig s).trans h) n s

/-! ### NEXT's two entries -/

theorem nextBuffered_eq (s : State) :
    nextBuffered s = runPhases phaseFuel { s with phase := .extract } := rfl

/-- A taken answer: BYPASS responds with the latched word, any other mode refills and runs on (42_config_next R162, R163). -/
theorem takeAnswer_cases (w : Word) (s : State) :
    (s.regs.mode = .bypass ∧
      takeAnswer w s = retire .ok (latchedWord (srcWidth s.regs) w) 0 (latchAnswer w s)) ∨
    (s.regs.mode ≠ .bypass ∧
      takeAnswer w s = runPhases phaseFuel { finishRefill (latchAnswer w s) with phase := .arbitrate }) := by
  cases h : s.regs.mode <;> simp [takeAnswer, h]

theorem takeAnswer_samePins (w : Word) (s : State) : SamePins s (takeAnswer w s) := by
  rcases takeAnswer_cases w s with ⟨-, h⟩ | ⟨-, h⟩ <;> rw [h]
  · exact ⟨rfl, rfl, rfl, rfl, rfl, rfl⟩
  · refine SamePins.trans ?_ (runPhases_samePins _ _)
    exact ⟨rfl, rfl, rfl, rfl, rfl, rfl⟩

end Sys2Proof.Machine
end

