-- ==== Sys2Proof/Laws/Exec.lean ====
section
/-! SUPPORT. What each meaning and the step can do, said once. -/

namespace Sys2Proof.Machine

/-- CFG has three outcomes (42_config_next R140). -/
theorem configure_cases (w : Width) (r : Word) (s : State) :
    (s.regs.fault = true ∧ configure w r s = respondError .faulted s) ∨
    (s.regs.fault = false ∧ widthMax w < r.toNat ∧ configure w r s = respondError .rangeWidth s) ∨
    (s.regs.fault = false ∧ r.toNat ≤ widthMax w ∧
      configure w r s = respond .ok 0 ((modeCode (configuredRegs w r s.regs).mode).setWidth 8)
        { s with regs := configuredRegs w r s.regs }) := by
  cases f : s.regs.fault
  · by_cases h : widthMax w < r.toNat
    · exact .inr (.inl ⟨rfl, h, by simp [configure, f, h]⟩)
    · exact .inr (.inr ⟨rfl, Nat.le_of_not_lt h, by simp [configure, f, h]⟩)
  · exact .inl ⟨rfl, by simp [configure, f]⟩

/-- NEXT's checks, then its mode (42_config_next R160). -/
theorem execNext_cases (s : State) :
    (s.regs.fault = true ∧ execNext s = .next (respondError .faulted s)) ∨
    (s.regs.fault = false ∧ s.regs.cfgValid = false ∧ execNext s = .next (respondError .notConfigured s)) ∨
    (s.regs.fault = false ∧ s.regs.cfgValid = true ∧ execNext s = .next (nextByMode (startNext s))) := by
  cases f : s.regs.fault <;> cases c : s.regs.cfgValid <;> simp [execNext, f, c]

/-- NEXT by mode (42_config_next R160). -/
theorem nextByMode_cases (s : State) :
    (s.regs.mode = .const ∧ nextByMode s = respond .ok 0 0 s) ∨
    (s.regs.mode = .bypass ∧ nextByMode s = issueRequest s) ∨
    (s.regs.mode.buffered = true ∧ nextByMode s = nextBuffered s) ∨
    (s.regs.mode = .none ∧ nextByMode s = respondError .notConfigured s) := by
  cases h : s.regs.mode <;> simp [nextByMode, h, Mode.buffered]

/-- RDREG reads a register or answers ILLEGAL_CMD (43_control R201). -/
theorem execRdreg_cases (i : Word) (s : State) :
    (∃ v, readRegister i s.regs = some v ∧ execRdreg i s = .next (respond .ok v 0 s)) ∨
    (readRegister i s.regs = none ∧ execRdreg i s = .next (respondError .illegalCmd s)) := by
  cases h : readRegister i s.regs <;> simp [execRdreg, h]

/-- No command faults or is refused: every error is a response (60_exceptions R250, R261). -/
theorem exec_answers_next (i : Instr) (s : State) : ∃ t, exec i s = .next t := by
  cases i with
  | nop => exact ⟨_, rfl⟩
  | cfgU8 r => exact ⟨_, rfl⟩
  | cfgU16 r => exact ⟨_, rfl⟩
  | cfgU32 r => exact ⟨_, rfl⟩
  | cfgU64 r => exact ⟨_, rfl⟩
  | next =>
    rcases execNext_cases s with ⟨-, h⟩ | ⟨-, -, h⟩ | ⟨-, -, h⟩ <;> exact ⟨_, h⟩
  | lookup x => exact ⟨_, rfl⟩
  | ispow2 x => exact ⟨_, rfl⟩
  | rdreg n =>
    rcases execRdreg_cases n s with ⟨v, -, h⟩ | ⟨-, h⟩ <;> exact ⟨_, h⟩

/-- An accepted command is executed if it decodes and answered with ILLEGAL_CMD if not (30_encoding R76, R77). -/
theorem acceptCommand_cases (c : Command) (s : State) :
    (∃ i, decode c = .ok i ∧ acceptCommand c s = exec i s) ∨
    (∃ e, decode c = .error e ∧ acceptCommand c s = .next (respondError .illegalCmd s)) := by
  cases h : decode c with
  | ok i => exact .inl ⟨i, rfl, by simp [acceptCommand, h]⟩
  | error e => exact .inr ⟨e, rfl, by simp [acceptCommand, h, illegalCommand]⟩

/-- Everything a step that answers a next state can have done. -/
theorem step_cases {s t : State} (h : step s = .next t) :
    (s.rst = true ∧ t = resetCycle s) ∨
    (s.rst = false ∧ s.phase = .idle ∧ ∃ c rest, s.cmds = c :: rest ∧
      acceptCommand c { s with cmds := rest } = .next t) ∨
    (s.rst = false ∧ s.phase = .srcwait ∧ s.srcPending = true ∧ ∃ w rest, s.answers = w :: rest ∧
      t = takeAnswer w { s with answers := rest }) ∨
    (s.rst = false ∧ (∃ r, s.phase = .respond r ∧ t = deliver r s) ∧ s.rspReady = true) ∨
    (s.rst = false ∧ (s.phase = .extract ∨ s.phase = .arbitrate) ∧ t = runPhases phaseFuel s) := by
  cases hr : s.rst with
  | true =>
    simp only [step, hr, ↓reduceIte, Host.Outcome.next.injEq] at h
    exact .inl ⟨rfl, h.symm⟩
  | false =>
    refine .inr ?_
    simp only [step, hr, Bool.false_eq_true, ↓reduceIte] at h
    cases hp : s.phase with
    | idle =>
      cases hc : s.cmds with
      | nil => simp [phaseStep, hp, idleStep, hc] at h
      | cons c rest => exact .inl ⟨rfl, rfl, c, rest, rfl, by simpa [phaseStep, hp, idleStep, hc, hr] using h⟩
    | srcwait =>
      cases hq : s.srcPending with
      | false => simp [phaseStep, hp, srcwaitStep, hq] at h
      | true =>
        cases ha : s.answers with
        | nil => simp [phaseStep, hp, srcwaitStep, hq, ha] at h
        | cons w rest =>
          refine .inr (.inl ⟨rfl, rfl, rfl, w, rest, rfl, ?_⟩)
          simpa [phaseStep, hp, srcwaitStep, hq, ha, hr] using h.symm
    | respond r =>
      cases hq : s.rspReady with
      | false => simp [phaseStep, hp, respondStep, hq] at h
      | true =>
        refine .inr (.inr (.inl ⟨rfl, ⟨r, rfl, ?_⟩, rfl⟩))
        simpa [phaseStep, hp, respondStep, hq, hr] using h.symm
    | extract =>
      refine .inr (.inr (.inr ⟨rfl, .inl rfl, ?_⟩))
      simpa [phaseStep, hp] using h.symm
    | arbitrate =>
      refine .inr (.inr (.inr ⟨rfl, .inr rfl, ?_⟩))
      simpa [phaseStep, hp] using h.symm

end Sys2Proof.Machine
end

