-- ==== Sys2Proof/Laws/PerInstr.lean ====
section
/-! SUPPORT. The family EncodedByteForm: the byte of every instruction keeps RSV at 0, and WS at 0 but for CFG (30_encoding
R71, R77). -/

namespace Sys2Proof.Laws.EncodedByteForm

/-- `RSV = 0`, and `WS = 0` unless `OP = 1` (30_encoding R71). -/
def Statement (i : Instr) : Prop :=
  rsvField (encode i).op = 0#2 ∧ (opField (encode i).op ≠ 1#4 → wsField (encode i).op = 0#2)

theorem nop : Statement .nop := by
  constructor <;> simp [encode, opcodeByte, rsvField, wsField]

theorem cfgU8 (r : Word) : Statement (.cfgU8 r) := by
  constructor <;> simp [encode, opcodeByte, rsvField, opField]

theorem cfgU16 (r : Word) : Statement (.cfgU16 r) := by
  constructor <;> simp [encode, opcodeByte, rsvField, opField]

theorem cfgU32 (r : Word) : Statement (.cfgU32 r) := by
  constructor <;> simp [encode, opcodeByte, rsvField, opField]

theorem cfgU64 (r : Word) : Statement (.cfgU64 r) := by
  constructor <;> simp [encode, opcodeByte, rsvField, opField]

theorem next : Statement .next := by
  constructor <;> simp [encode, opcodeByte, rsvField, wsField]

theorem lookup (x : Word) : Statement (.lookup x) := by
  constructor <;> simp [encode, opcodeByte, rsvField, wsField]

theorem ispow2 (x : Word) : Statement (.ispow2 x) := by
  constructor <;> simp [encode, opcodeByte, rsvField, wsField]

theorem rdreg (n : Word) : Statement (.rdreg n) := by
  constructor <;> simp [encode, opcodeByte, rsvField, wsField]

end Sys2Proof.Laws.EncodedByteForm
end

