-- ==== Sys2Proof/Tests/Slice0.lean ====
section
/-! SUPPORT. Tests with expected results from spec/95_test_vectors.md or worked by hand from the rules, and for every statement
that has hypotheses a concrete state and operands that meet them (witness_…). -/

-- One theorem at a time: checked side by side, this file's evaluations ask for more threads than check.sh's memory limit gives.
set_option Elab.async false

namespace Sys2Proof.Tests

open Sys2Proof.Machine

/-! ## Decoding: bytes written out from 30_encoding R71, R75 -/

theorem test_decode_nop : decode ⟨0b00000000#8, 0xFFFF#64⟩ = .ok .nop := by decide
theorem test_decode_cfgU8 : decode ⟨0b00000001#8, 7#64⟩ = .ok (.cfgU8 7#64) := by decide
theorem test_decode_cfgU16 : decode ⟨0b00010001#8, 0x594#64⟩ = .ok (.cfgU16 0x594#64) := by decide
theorem test_decode_cfgU32 : decode ⟨0b00100001#8, 0xFFFFFFFF#64⟩ = .ok (.cfgU32 0xFFFFFFFF#64) := by decide
theorem test_decode_cfgU64 : decode ⟨0b00110001#8, 5#64⟩ = .ok (.cfgU64 5#64) := by decide
theorem test_decode_next : decode ⟨0b00000010#8, 3#64⟩ = .ok .next := by decide
theorem test_decode_lookup : decode ⟨0b00000011#8, 0x5DC#64⟩ = .ok (.lookup 0x5DC#64) := by decide
theorem test_decode_ispow2 : decode ⟨0b00000100#8, 0x595#64⟩ = .ok (.ispow2 0x595#64) := by decide
theorem test_decode_rdreg : decode ⟨0b00000101#8, 2#64⟩ = .ok (.rdreg 2#64) := by decide
theorem test_decode_op6 : decode ⟨0x06#8, 0#64⟩ = .error .operation := by decide
theorem test_decode_op15 : decode ⟨0x0F#8, 0#64⟩ = .error .operation := by decide
theorem test_decode_next_with_ws : decode ⟨0x12#8, 7#64⟩ = .error .widthSelect := by decide
theorem test_decode_rsv : decode ⟨0x41#8, 7#64⟩ = .error .reservedBits := by decide
theorem test_decode_ff : decode ⟨0xFF#8, 0#64⟩ = .error .reservedBits := by decide

/-- Of the 256 bytes exactly 9 are legal (30_encoding R77). -/
theorem test_nine_legal_bytes :
    ((List.range 256).filter fun n => (decode ⟨BitVec.ofNat 8 n, 0⟩).isOk) =
      [0x00, 0x01, 0x02, 0x03, 0x04, 0x05, 0x11, 0x21, 0x31] := by decide +kernel

theorem test_table_word : decodeTableWord 8 0x31 = some (.cfgU64 0) := by decide
theorem test_table_word_illegal : decodeTableWord 8 0x06 = none := by decide

/-! ## WellFormed refuses -/

theorem test_wf_cfgU8_refuses : (Instr.cfgU8 256#64).wf = false := by decide
theorem test_wf_cfgU16_refuses : (Instr.cfgU16 0x10000#64).wf = false := by decide
theorem test_wf_cfgU32_refuses : (Instr.cfgU32 0x100000000#64).wf = false := by decide
theorem test_wf_cfgU8_largest : (Instr.cfgU8 255#64).wf = true := by decide
theorem test_wf_rdreg_refuses : (Instr.rdreg 5#64).wf = false := by decide
theorem test_wf_line_immediate_refuses : (AsmLine.cfg .w8 (2 ^ 64)).wf = false := by decide
theorem test_wf_line_pow2_refuses : (AsmLine.cfgPow2 .w8 9).wf = false := by decide
theorem test_wf_line_size_zero_refuses : (AsmLine.cfgSize .w8 0).wf = false := by decide
theorem test_wf_line_size_wide_refuses : (AsmLine.cfgSize .w8 257).wf = false := by decide
theorem test_wf_request_refuses : (Request.mk 0 256 .cc .w8 false).wf = false := by decide

/-! ## The assembler (30_encoding R80, R81) -/

theorem test_assemble_text :
    assembleText "CFG.u16 1428 ; S1\nnext\nrdreg config\ncfg.pow2.u64 64" =
      some [⟨0x11#8, 0x594#64⟩, ⟨0x02#8, 0#64⟩, ⟨0x05#8, 3#64⟩, ⟨0x31#8, 0xFFFFFFFFFFFFFFFF#64⟩] := by decide +kernel
theorem test_assemble_refuses : assembleText "jump 3" = none := by decide +kernel

/-! ## The lookup unit (95_test_vectors 2.1, 2.2) -/

theorem test_lookup_1428 : (smear 0x594#64, bitCountOf 0x594#64) = (0x7FF#64, 11) := by decide +kernel
theorem test_lookup_top : (smear (0x8000000000000000#64), bitCountOf (0x8000000000000000#64)) =
    (0xFFFFFFFFFFFFFFFF#64, 64) := by decide +kernel
theorem test_lookup_zero : (smear 0#64, bitCountOf 0#64, deBruijnCount64 0#64) = (0#64, 0, 0) := by decide +kernel
theorem test_debruijn_33 : deBruijnCount64 0x100000000#64 = 33 := by decide +kernel
theorem test_ispow2_wrap : isPow2 0#64 = true := by decide
theorem test_ispow2_1429 : isPow2 0x595#64 = false := by decide

/-! ## States for the single-step tests -/

/-- A reset engine with a guard of 8 (95_test_vectors, conventions). -/
def base : State := { State.reset with params := ⟨true, 7⟩ }

/-- The registers after `cfg.uN r` from reset. -/
def regsOf (w : Width) (r : Word) : Regs := configuredRegs w r Regs.reset

/-- A configured engine, idle, with the residual given. -/
def configured (w : Width) (r residual : Word) : State :=
  { base with regs := { regsOf w r with residual := residual } }

/-- A configured engine with NEXT on the port. -/
def readyForNext (w : Width) (r residual : Word) : State :=
  { configured w r residual with cmds := [nextCommand] }

/-- A configured engine whose NEXT waits for a word, with `word` as the BitSource's answer. -/
def waitingFor (w : Width) (r residual word : Word) : State :=
  { configured w r residual with srcPending := true, phase := .srcwait, answers := [word] }

/-- What a test reads of an outcome. -/
def view {α : Type} (f : State → α) : Host.Outcome State Fault Refusal → Option α
  | .next s => some (f s)
  | .fault _ => none
  | .refused _ => none

/-! ## CFG (95_test_vectors 2.3: the CONFIG column) -/

theorem test_cfg_u16_1428 :
    view (fun s => (s.phase, configView s.regs)) (exec (.cfgU16 0x594#64) base) =
      some (.respond ⟨.ok, 0, 2⟩, 0x112090B#64) := by decide +kernel
theorem test_cfg_u8_7 : view (fun s => configView s.regs) (exec (.cfgU8 7#64) base) = some 0x1030103#64 := by decide +kernel
theorem test_cfg_u8_256 :
    view (fun s => (s.phase, s.regs)) (exec (.cfgU8 256#64) base) = some (.respond ⟨.rangeWidth, 0, 0⟩, Regs.reset) := by
  decide +kernel
theorem test_cfg_u32_full : view (fun s => configView s.regs) (exec (.cfgU32 0xFFFFFFFF#64) base) = some 0x1250020#64 := by
  decide +kernel
theorem test_cfg_u64_33 : view (fun s => configView s.regs) (exec (.cfgU64 0x1FFFFFFFF#64) base) = some 0x1331F21#64 := by
  decide +kernel
theorem test_cfg_u64_top :
    view (fun s => configView s.regs) (exec (.cfgU64 0x8000000000000000#64) base) = some 0x1320040#64 := by decide +kernel
theorem test_cfg_discards_buffer :
    view (fun s => s.regs.residual) (exec (.cfgU8 7#64) (configured .w8 7 0x10123456789ABCDE#64)) = some 0 := by
  decide +kernel

/-! ## NOP, RDREG, LOOKUP, ISPOW2 (95_test_vectors 2.5) -/

theorem test_nop : view (fun s => s.phase) (exec .nop base) = some (.respond ⟨.ok, 0, 0⟩) := by decide
theorem test_rdreg_config :
    view (fun s => s.phase) (exec (.rdreg 3) (configured .w16 0x594 0)) = some (.respond ⟨.ok, 0x112090B#64, 0⟩) := by
  decide +kernel
theorem test_rdreg_all_bits_compared :
    view (fun s => s.phase) (exec (.rdreg 0x100000001#64) base) = some (.respond ⟨.illegalCmd, 0, 0⟩) := by decide
theorem test_exec_lookup :
    view (fun s => s.phase) (exec (.lookup 0x5DC#64) base) = some (.respond ⟨.ok, 0x7FF#64, 11⟩) := by decide +kernel
theorem test_exec_ispow2 : view (fun s => s.phase) (exec (.ispow2 0#64) base) = some (.respond ⟨.ok, 1, 0⟩) := by
  decide +kernel

/-! ## NEXT (95_test_vectors 2.4) -/

theorem test_next_unconfigured_first_step :
    view (fun s => s.phase) (step (State.reset.withFetchWord 8 0x02)) = some (.respond ⟨.notConfigured, 0, 0⟩) := by
  decide +kernel
/-- X7's first result: the word's bit 0 is discarded. -/
theorem test_next_refill :
    view (fun s => (s.phase, s.regs.residual)) (step (waitingFor .w8 7 0 0x0123456789ABCDEF#64)) =
      some (.respond ⟨.ok, 7, 1⟩, 0x10123456789ABCDE#64) := by decide +kernel
/-- X7's second result. -/
theorem test_next_buffered :
    view (fun s => (s.phase, s.regs.residual)) (exec .next (configured .w8 7 0x10123456789ABCDE#64)) =
      some (.respond ⟨.ok, 6, 1⟩, 0x0202468ACF13579B#64) := by decide +kernel
/-- X8's first result: 7 and 6 are rejected, 3 is accepted. -/
theorem test_next_any :
    view (fun s => (s.phase, s.iter)) (step (waitingFor .w8 5 0 0x0123456789ABCDEF#64)) =
      some (.respond ⟨.ok, 3, 3⟩, 3) := by decide +kernel
/-- X3: the upper half of a 32-bit answer is ignored. -/
theorem test_next_bypass32 :
    view (fun s => s.phase) (step (waitingFor .w32 0xFFFFFFFF 0 0xFFFFFFFFDEADBEEF#64)) =
      some (.respond ⟨.ok, 0xDEADBEEF#64, 0⟩) := by decide +kernel
/-- X9's first word at b = 64: rejected, and RESIDUAL is 1. -/
theorem test_next_b64_rejects :
    view (fun s => (s.phase, s.regs.residual, s.requests))
      (step (waitingFor .w64 0x8000000000000000#64 0 0xFFFFFFFFFFFFFFFF#64)) = some (.srcwait, 1, [.w64]) := by
  decide +kernel
/-- 10_state R34: ITER is 0 when NEXT starts, in CONST too. -/
theorem test_next_clears_iter :
    view (fun s => s.iter) (exec .next { configured .w8 0 0 with iter := 5 }) = some 0 := by decide +kernel
/-- 60_exceptions R260, 70_reset R290: as `rst` rises FAULT and fault_o are 0 together. -/
theorem test_reset_clears_fault :
    (faultO (hostReset true { base with regs := { Regs.reset with fault := true } })) = false := by decide
/-- X12: GUARD_LIMIT = 1. -/
theorem test_next_guard :
    view (fun s => (s.phase, s.regs.fault, s.regs.residual))
      (step { waitingFor .w8 2 0 3 with params := ⟨true, 0⟩ }) =
      some (.respond ⟨.corruptState, 0, 0⟩, true, 0x4000000000000000#64) := by decide +kernel
/-- X12's word without the guard: 3 is rejected and the next group, 0, is the result. -/
theorem test_next_no_guard :
    view (fun s => s.phase) (step { waitingFor .w8 2 0 3 with params := ⟨false, 0⟩ }) =
      some (.respond ⟨.ok, 0, 2⟩) := by decide +kernel

/-! ## Host mapping (95_test_vectors 2.6) -/

theorem test_host_oo_signed :
    (makeGenerator ⟨-10, 10, .oo, .w8, true⟩).toOption.map (fun g => (g.loEff, g.rangeMax, g.value 0x12, g.hardwareValue 0x12)) =
      some (-9, 0x12, 9, 9) := by decide +kernel
theorem test_host_empty : (makeGenerator ⟨5, 6, .oo, .w8, false⟩).isOk = false := by decide
theorem test_host_one_shot :
    (oneShot ⟨71, 1500, .co, .w16, false⟩).toOption = some [⟨0x11#8, 0x594#64⟩, ⟨0x02#8, 0#64⟩] := by decide +kernel

/-! ## Witnesses: the invariant -/

theorem regsInv_of {r : Regs} (configured : r.cfgValid = true) (range : r.rangeMax.toNat ≤ widthMax r.wsel)
    (same : { r with residual := 0 } = configuredRegs r.wsel r.rangeMax { Regs.reset with fault := r.fault })
    (count : bitCountOf r.rangeMax < 256) (excess : excessOf (bitCountOf r.rangeMax) < 256)
    (buffer : r.mode.buffered = true → ResidualOk (groupBits r) r.residual)
    (noBuffer : r.mode.buffered = false → r.residual = 0) (faulted : r.fault = true → r.mode = .any) : r.Inv := by
  have field : ∀ {α : Type} (f : Regs → α),
      f { r with residual := 0 } = f (configuredRegs r.wsel r.rangeMax { Regs.reset with fault := r.fault }) :=
    fun f => congrArg f same
  refine ⟨fun h => ?_, fun _ => range, fun _ => field Regs.bitMask, fun _ => ?_, fun _ => ?_,
    fun _ => field Regs.mode, buffer, noBuffer, faulted⟩
  · simp [configured] at h
  · simpa [configuredRegs, Nat.mod_eq_of_lt count] using congrArg BitVec.toNat (field Regs.bitCount)
  · simpa [configuredRegs, Nat.mod_eq_of_lt excess] using congrArg BitVec.toNat (field Regs.excess)

theorem idleInv_of {s : State} (regs : s.regs.Inv) (phase : s.phase = .idle) (pending : s.srcPending = false)
    (rst : s.rst = false) (iter : s.iter = 0) : s.Inv := by
  refine ⟨regs, ?_, ?_, ?_, ?_, ?_, ?_, ?_, ?_⟩ <;> simp [phase, pending, rst, iter]

theorem potRegs_inv : (configured .w8 7 0).regs.Inv :=
  regsInv_of (by decide) (by decide +kernel) (by decide +kernel) (by decide +kernel) (by decide +kernel)
    (fun _ => .inl rfl) (by decide +kernel) (by decide)

theorem anyRegs_inv : (configured .w8 5 0x10123456789ABCDE#64).regs.Inv :=
  regsInv_of (by decide) (by decide +kernel) (by decide +kernel) (by decide +kernel) (by decide +kernel)
    (fun _ => .inr ⟨20, by decide +kernel, by decide +kernel, by decide +kernel⟩) (by decide +kernel) (by decide)

theorem bypassRegs_inv : (configured .w32 0xFFFFFFFF 0).regs.Inv :=
  regsInv_of (by decide) (by decide +kernel) (by decide +kernel) (by decide +kernel) (by decide +kernel)
    (fun _ => .inl rfl) (by decide +kernel) (by decide)

theorem wideRegs_inv : (configured .w64 0x8000000000000000 1).regs.Inv :=
  regsInv_of (by decide) (by decide +kernel) (by decide +kernel) (by decide +kernel) (by decide +kernel)
    (fun _ => .inr ⟨0, by decide +kernel, by decide +kernel, by decide +kernel⟩) (by decide +kernel) (by decide)

theorem waitingInv_of {w : Width} {r residual word : Word} (regs : (configured w r residual).regs.Inv)
    (draws : (regsOf w r).mode = .bypass ∨ (regsOf w r).mode.buffered = true ∧ residual.toNat ≤ 1) :
    (waitingFor w r residual word).Inv := by
  refine ⟨regs, ?_, ?_, ?_, ?_, ?_, ?_, ?_, ?_⟩
  · simp [waitingFor]
  · simp [waitingFor]
  · simp [waitingFor]
  · exact fun _ => ⟨rfl, rfl, draws⟩
  · exact fun _ _ _ => Nat.succ_pos _
  · exact fun h => nomatch h
  · exact fun _ => rfl
  · intro q h
    simp [waitingFor] at h

theorem witness_potWaiting_inv : (waitingFor .w8 7 0 3).Inv :=
  waitingInv_of potRegs_inv (.inr ⟨by decide +kernel, by decide⟩)

theorem witness_bypassWaiting_inv : (waitingFor .w32 0xFFFFFFFF 0 3).Inv :=
  waitingInv_of bypassRegs_inv (.inl (by decide +kernel))

theorem witness_wideWaiting_inv : (waitingFor .w64 0x8000000000000000 1 3).Inv :=
  waitingInv_of wideRegs_inv (.inr ⟨by decide +kernel, by decide⟩)

theorem witness_anyReady_inv : (readyForNext .w8 5 0x10123456789ABCDE#64).Inv := idleInv_of anyRegs_inv rfl rfl rfl rfl

theorem nextOnPort (w : Width) (r residual : Word) : (readyForNext w r residual).Accepting .next [] :=
  ⟨rfl, rfl, _, rfl, by decide⟩

/-! ## Witnesses: encoding, lookup, CFG -/

theorem witness_DecodeEncodeAgree : decode ⟨0x00#8, 9⟩ = .ok .nop ∧ decode ⟨0x05#8, -1⟩ = .ok (.rdreg (-1)) := by decide
theorem witness_DecodeSelectsTheMatchingRow : ∃ i, decode ⟨0x31#8, 5⟩ = .ok i := ⟨_, rfl⟩
theorem witness_IllegalBytesAreAnswered :
    let s := { base with cmds := [⟨0x06#8, 0⟩] }
    s.rst = false ∧ s.phase = .idle ∧ s.cmds = [⟨0x06#8, 0⟩] ∧
      (0x06#8 : Byte) ∉ [0x00#8, 0x01#8, 0x11#8, 0x21#8, 0x31#8, 0x02#8, 0x03#8, 0x04#8, 0x05#8] := by decide
theorem witness_AssembledLinesDecode :
    (2 ^ 64 - 1 < 2 ^ 64 ∧ 2 ^ 64 ≤ 2 ^ 64) ∧ (64 ≤ Width.w64.bits ∧ Width.w8.bits < 9) ∧
      (1 ≤ 256 ∧ 256 ≤ 2 ^ Width.w8.bits ∧ 2 ^ Width.w8.bits < 257) ∧
      assemble (.cfgPow2 .w64 64) = some [⟨0x31#8, -1⟩] := by decide +kernel
theorem witness_SmearFillsBelowHighestBit : (63 : Nat) < 64 ∧ (0 : Nat) < 64 := by decide
theorem witness_BitCountIsHighestBitPlusOne : (0x8000000000000000 : Word) ≠ 0 ∧ 1 ≤ 64 ∧ 64 ≤ 64 := by decide
theorem witness_SmearIsLeastMask : (5 : Word).toNat ≤ 2 ^ 3 - 1 ∧ 1 ≤ (5 : Word).toNat := by decide
theorem witness_DeBruijnDatapathCountsBits :
    deBruijnIndex64 (BitVec.ofNat 64 (2 ^ 64 - 1)) = deBruijnIndex64 (BitVec.ofNat 64 (2 ^ 64 - 1)) ∧ 1 ≤ 64 := by decide
theorem witness_SmearLaws : 1 ≤ (5 : Word).toNat ∧ smear 5 ≠ 5 := by decide
theorem witness_Ispow2AnswersExactly :
    ((0x8000000000000000 : Word) = 0 ∨ ∃ k, k < 64 ∧ (0x8000000000000000 : Word).toNat = 2 ^ k) ∧
      ¬((3 : Word) = 0 ∨ ∃ k, k < 64 ∧ (3 : Word).toNat = 2 ^ k) :=
  ⟨.inr ⟨63, by decide, by decide⟩, by decide⟩
theorem witness_RdregReadsTheNamedRegister : 4 < (5 : Word).toNat := by decide
theorem witness_CfgConfiguresOrRefuses :
    let faulted := { base with regs := { Regs.reset with fault := true } }
    faulted.regs.fault = true ∧ base.regs.fault = false ∧ 2 ^ Width.w8.bits - 1 < (256 : Word).toNat ∧
      (255 : Word).toNat ≤ 2 ^ Width.w8.bits - 1 := by decide
theorem witness_ModeByRange :
    (255 : Word).toNat ≤ 2 ^ Width.w8.bits - 1 ∧ (65535 : Word).toNat ≤ 2 ^ Width.w16.bits - 1 ∧
      (0xFFFFFFFF : Word).toNat ≤ 2 ^ Width.w32.bits - 1 ∧ (0xFFFFFFFF : Word).toNat = 2 ^ 32 - 1 ∧
      (0xFFFFFFFFFFFFFFFF : Word).toNat ≤ 2 ^ Width.w64.bits - 1 ∧
      classify .w8 5 (smear 5) (bitCountOf 5) = .any := by decide +kernel
theorem witness_ConfigurationLaws :
    (configured .w8 5 0x10123456789ABCDE#64).regs.Inv ∧ (configured .w8 5 0x10123456789ABCDE#64).regs.cfgValid = true ∧
      (configured .w8 5 0x10123456789ABCDE#64).regs.mode = .any ∧ (configured .w8 7 0).regs.mode = .pot :=
  ⟨anyRegs_inv, rfl, by decide +kernel, by decide +kernel⟩

/-! ## Witnesses: NEXT -/

theorem witness_NextRefusesUnconfiguredOrFaulted :
    base.regs.fault = false ∧ base.regs.cfgValid = false ∧ ({ Regs.reset with fault := true } : Regs).fault = true := by
  decide
theorem witness_NextConstAnswersZero :
    let s := configured .w8 0 0
    s.regs.fault = false ∧ s.regs.cfgValid = true ∧ s.regs.mode = .const := by decide +kernel
theorem witness_NextBypassReturnsTheRawDraw :
    let s := configured .w32 0xFFFFFFFF 0
    let t := configured .w64 0xFFFFFFFFFFFFFFFF 0
    (s.regs.fault = false ∧ s.regs.cfgValid = true ∧ s.regs.mode = .bypass ∧ s.regs.wsel = .w32 ∧ s.rst = false) ∧
      t.regs.fault = false ∧ t.regs.cfgValid = true ∧ t.regs.mode = .bypass ∧ t.regs.wsel = .w64 ∧ t.rst = false := by
  decide +kernel
theorem witness_NextTakesTheBufferedGroup :
    let s := configured .w8 7 0x10123456789ABCDE#64
    let t := configured .w8 1 2
    (s.regs.fault = false ∧ s.regs.cfgValid = true ∧ s.regs.mode = .pot ∧ 1 < s.regs.residual.toNat) ∧
      t.regs.mode = .popot ∧ 1 < t.regs.residual.toNat := by decide +kernel
theorem witness_NextRequestsAWordWhenEmpty :
    let s := configured .w8 5 1
    s.regs.fault = false ∧ s.regs.cfgValid = true ∧ s.regs.mode.buffered = true ∧ s.regs.residual.toNat ≤ 1 := by
  decide +kernel
theorem witness_RefillAnswersItsCandidate :
    let s := waitingFor .w8 5 0 0xA
    s.rst = false ∧ s.phase = .srcwait ∧ s.srcPending = true ∧ s.regs.mode = .any ∧ s.answers = [0xA] ∧
      (((0xA : Word) >>> s.regs.excess.toNat) &&& s.regs.bitMask).toNat ≤ s.regs.rangeMax.toNat := by decide +kernel
/-- One group a word, and sixteen: with the guard's limit at 2 the second rejection raises, without it all are used up. -/
theorem witness_RejectedRefillRaisesOrAsksAgain :
    let s := waitingFor .w64 0x8000000000000000 1 0xFFFFFFFFFFFFFFFF
    let u := { waitingFor .w8 9 0 0xFFFFFFFFFFFFFFFF with params := ⟨true, 1⟩ }
    (s.rst = false ∧ s.phase = .srcwait ∧ s.srcPending = true ∧ s.regs.mode = .any ∧ BufferParams s.regs ∧
      s.answers = [0xFFFFFFFFFFFFFFFF] ∧ 64 / s.regs.bitCount.toNat = 1 ∧ s.iter + 1 < s.params.guardLimit ∧
      (∀ i, i < 1 → s.regs.rangeMax.toNat < (2 ^ 64 - 1) / 2 ^ (s.regs.excess.toNat + i * 64) % 2 ^ 64)) ∧
    u.rst = false ∧ u.phase = .srcwait ∧ u.srcPending = true ∧ u.regs.mode = .any ∧ BufferParams u.regs ∧
      u.answers = [0xFFFFFFFFFFFFFFFF] ∧ 64 / u.regs.bitCount.toNat = 16 ∧ u.params.debugGuard = true ∧
      max 1 (u.params.guardLimit - u.iter) = 2 ∧
      (∀ i, i < 16 → u.regs.rangeMax.toNat < (2 ^ 64 - 1) / 2 ^ (u.regs.excess.toNat + i * 4) % 2 ^ 4) := by
  unfold BufferParams
  decide +kernel
/-- X8's first result: 7 and 6 are rejected, 3 is accepted. -/
theorem witness_AnswerReturnsTheFirstAcceptedGroup :
    let s := waitingFor .w8 5 0 0x0123456789ABCDEF
    s.rst = false ∧ s.phase = .srcwait ∧ s.srcPending = true ∧ s.regs.mode = .any ∧ BufferParams s.regs ∧
      s.answers = [0x0123456789ABCDEF] ∧ s.regs.bitCount.toNat = 3 ∧ s.regs.excess.toNat = 1 ∧ 2 < 64 / 3 ∧
      (∀ k, k < 2 → s.regs.rangeMax.toNat < 0x0123456789ABCDEF / 2 ^ (1 + k * 3) % 2 ^ 3) ∧
      0x0123456789ABCDEF / 2 ^ (1 + 2 * 3) % 2 ^ 3 ≤ s.regs.rangeMax.toNat ∧ s.iter + 2 < s.params.guardLimit := by
  unfold BufferParams
  decide +kernel
theorem witness_NextAnyReturnsTheFirstAcceptedGroup :
    let s := configured .w8 5 0x10123456789ABCDE#64
    s.regs.fault = false ∧ s.regs.cfgValid = true ∧ s.regs.mode = .any ∧ BufferParams s.regs ∧
      HoldsGroups s.regs.bitCount.toNat 20 s.regs.residual ∧ 1 < 20 ∧
      (∀ k, k < 1 → s.regs.rangeMax.toNat < groupAt s.regs.bitCount.toNat k s.regs.residual) ∧
      groupAt s.regs.bitCount.toNat 1 s.regs.residual ≤ s.regs.rangeMax.toNat ∧ 1 < s.params.guardLimit := by
  unfold BufferParams HoldsGroups
  decide +kernel
theorem witness_NextAnyUsesUpTheBufferBeforeRefill :
    let s := configured .w8 5 0x7F
    s.regs.fault = false ∧ s.regs.cfgValid = true ∧ s.regs.mode = .any ∧ BufferParams s.regs ∧
      HoldsGroups s.regs.bitCount.toNat 2 s.regs.residual ∧
      (∀ k, k < 2 → s.regs.rangeMax.toNat < groupAt s.regs.bitCount.toNat k s.regs.residual) ∧ 2 < s.params.guardLimit := by
  unfold BufferParams HoldsGroups
  decide +kernel
theorem witness_GuardStopsNextAtItsLimit :
    let s := { configured .w8 5 0x7F with params := ⟨true, 1⟩ }
    s.regs.fault = false ∧ s.regs.cfgValid = true ∧ s.regs.mode = .any ∧ BufferParams s.regs ∧
      HoldsGroups s.regs.bitCount.toNat 2 s.regs.residual ∧ s.params.debugGuard = true ∧ s.params.guardLimit ≤ 2 ∧
      (∀ k, k < 2 → s.regs.rangeMax.toNat < groupAt s.regs.bitCount.toNat k s.regs.residual) := by
  unfold BufferParams HoldsGroups
  decide +kernel
theorem witness_RefilledWordIsTakenInGroups :
    BufferParams (configured .w8 7 0).regs ∧ 20 < 64 / (configured .w8 7 0).regs.bitCount.toNat ∧
      BufferParams (configured .w64 0x8000000000000000 0).regs ∧
      0 < 64 / (configured .w64 0x8000000000000000 0).regs.bitCount.toNat := by
  unfold BufferParams
  decide +kernel
theorem witness_CandidatesAreUnbiased :
    BufferParams (configured .w8 7 0).regs ∧
      ∀ i, i < 64 / (configured .w8 7 0).regs.bitCount.toNat →
        ((fun _ => 7 : Nat → Word) i).toNat ≤ (configured .w8 7 0).regs.bitMask.toNat :=
  ⟨by unfold BufferParams; decide +kernel, by decide +kernel⟩
theorem witness_NextResultsStayInRange :
    let s := readyForNext .w8 5 0x10123456789ABCDE#64
    s.Inv ∧ s.rst = false ∧ s.Accepting .next [] ∧
      view (fun t => t.phase) (step s) = some (.respond ⟨.ok, 3, 2⟩) :=
  ⟨witness_anyReady_inv, rfl, nextOnPort _ _ _, by decide +kernel⟩
theorem witness_StrategyLabelIsImmaterial :
    let s := readyForNext .w8 7 0x10123456789ABCDE#64
    Mode.any.buffered = true ∧ Mode.pot.buffered = true ∧ s.regs.bitMask = s.regs.rangeMax ∧ s.rst = false ∧
      s.Accepting .next [] ∧ s.regs.fault = false ∧ s.regs.cfgValid = true ∧ ∃ t, step (relabel .any s) = .next t :=
  ⟨rfl, rfl, by decide +kernel, rfl, nextOnPort _ _ _, rfl, rfl, _, rfl⟩
theorem witness_PotStreamReturnsGroupsInOrder :
    let s := { configured .w8 7 0 with cmds := List.replicate 22 nextCommand, answers := [1, 2] }
    s.Inv ∧ s.rst = false ∧ s.rspReady = true ∧ s.phase = .idle ∧ s.regs.fault = false ∧ s.regs.mode = .pot ∧
      s.regs.residual = 0 ∧ s.cmds = List.replicate 22 nextCommand ∧
      (22 + 64 / s.regs.bitCount.toNat - 1) / (64 / s.regs.bitCount.toNat) ≤ s.answers.length :=
  ⟨idleInv_of potRegs_inv rfl rfl rfl rfl, rfl, rfl, rfl, rfl, by decide +kernel, rfl, rfl, by decide +kernel⟩
theorem witness_GuardedNextEnds :
    let s := { readyForNext .w8 5 0x10123456789ABCDE#64 with answers := List.replicate 8 0xFFFFFFFFFFFFFFFF }
    s.Inv ∧ s.rst = false ∧ s.params.debugGuard = true ∧ s.Accepting .next [] ∧ s.params.guardLimit ≤ s.answers.length :=
  ⟨idleInv_of anyRegs_inv rfl rfl rfl rfl, rfl, rfl, ⟨rfl, rfl, _, rfl, by decide⟩, by decide⟩

/-! ## Witnesses: errors and the machine -/

theorem witness_ErrorsChangeNoRegister :
    let s := { waitingFor .w8 2 0 3 with params := ⟨true, 0⟩ }
    s.rst = false ∧ view (fun t => t.phase) (step s) = some (.respond ⟨.corruptState, 0, 0⟩) ∧
      view (fun t => t.phase) (step { base with cmds := [nextCommand] }) = some (.respond ⟨.notConfigured, 0, 0⟩) := by
  decide +kernel
theorem witness_OnlyTheGuardSetsFault :
    let s := { waitingFor .w64 0x8000000000000000 1 0xFFFFFFFFFFFFFFFF with params := ⟨true, 0⟩ }
    s.Inv ∧ s.regs.fault = false ∧ view (fun t => t.regs.fault) (step s) = some true := by
  refine ⟨⟨wideRegs_inv, ?_, ?_, ?_, ?_, ?_, ?_, ?_, ?_⟩, rfl, by decide +kernel⟩
  · simp [waitingFor]
  · simp [waitingFor]
  · simp [waitingFor]
  · exact fun _ => ⟨rfl, rfl, .inr ⟨by decide +kernel, by decide⟩⟩
  · exact fun _ _ _ => Nat.succ_pos _
  · exact fun h => nomatch h
  · exact fun _ => rfl
  · intro q h
    simp [waitingFor] at h
theorem witness_FaultIsStickyUntilReset :
    let s := { readyForNext .w8 5 1 with regs := { regsOf .w8 5 with fault := true } }
    s.regs.fault = true ∧ s.rst = false ∧ s.phase = .idle ∧ s.Accepting .next [] ∧ (∃ t, step s = .next t) ∧
      ∃ t, step (hostReset true s) = .next t :=
  ⟨rfl, rfl, rfl, ⟨rfl, rfl, _, rfl, by decide⟩, ⟨_, rfl⟩, _, rfl⟩
theorem witness_StepRunsTheDecodedInstruction :
    let s := { base with cmds := [⟨0x03#8, 5⟩] }
    s.rst = false ∧ s.phase = .idle ∧ s.cmds = [⟨0x03#8, 5⟩] ∧ decode ⟨0x03#8, 5⟩ = .ok (.lookup 5) := by decide
theorem witness_ResponseIsHeldUntilTaken :
    let s := { base with phase := .respond ⟨.ok, 1, 1⟩ }
    s.rst = false ∧ s.phase = .respond ⟨.ok, 1, 1⟩ ∧ s.rspReady = true ∧ (hostReady false s).rspReady = false := by decide
theorem witness_CommandsAreTakenOnlyWhenReady :
    cmdReady (readyForNext .w8 7 0) = true ∧ (∃ t, step (readyForNext .w8 7 0) = .next t) ∧
      cmdReady (waitingFor .w8 7 0 3) = false ∧ ∃ t, step (waitingFor .w8 7 0 3) = .next t :=
  ⟨by decide, ⟨_, rfl⟩, by decide, _, rfl⟩
theorem witness_OneResponsePerCommand :
    let s := { base with cmds := [⟨0x00#8, 0⟩] }
    s.rst = false ∧ ∃ t, Reaches 2 s t :=
  ⟨rfl, _, _, rfl, _, rfl, rfl⟩
theorem witness_OnlyNextRequestsWords :
    (readyForNext .w8 5 0x10123456789ABCDE#64).Inv ∧ (waitingFor .w64 0x8000000000000000 1 3).Inv ∧
      view (fun t => t.requests) (step (waitingFor .w64 0x8000000000000000 1 0xFFFFFFFFFFFFFFFF)) = some [.w64] ∧
      view (fun t => t.answers) (step (waitingFor .w64 0x8000000000000000 1 3)) = some [] :=
  ⟨witness_anyReady_inv, witness_wideWaiting_inv, by decide +kernel, by decide +kernel⟩
theorem witness_OnlyCfgNextAndResetWriteRegisters :
    let s := readyForNext .w8 5 0x10123456789ABCDE#64
    s.Inv ∧ view (fun t => t.regs == s.regs) (step s) = some false :=
  ⟨witness_anyReady_inv, by decide +kernel⟩
theorem witness_ParametersAreFixed : ∃ t, step (readyForNext .w8 7 0) = .next t := ⟨_, rfl⟩
theorem witness_LaterAnswersDoNotMatter :
    (waitingFor .w8 7 0 3).rst = false ∧ ∃ t, step (waitingFor .w8 7 0 3) = .next t := ⟨rfl, _, rfl⟩
theorem witness_EqualViewsReplayEqually :
    let s := readyForNext .w8 5 0x10123456789ABCDE#64
    s.Inv ∧ s.rst = false ∧ SameView s { s with wordLatch := 1, cand := 2, iter := 3, frees := 4 } ∧ ∃ t, Reaches 1 s t :=
  ⟨witness_anyReady_inv, rfl, ⟨rfl, rfl, rfl, rfl, rfl, rfl, rfl, rfl, fun h => by simp [readyForNext, configured, base, State.reset] at h⟩,
    _, _, rfl, rfl⟩
theorem witness_SaveRestoreWithTheSameCfg :
    let s := { configured .w8 7 0 with answers := [1, 2] }
    let u := configured .w8 5 0x10123456789ABCDE#64
    s.Inv ∧ s.regs.cfgValid = true ∧ s.regs.fault = false ∧ s.regs.residual = 0 ∧ u.regs.fault = false ∧
      saveSource s = some [1, 2] ∧ ∃ v, restoreSource [1, 2] u = some v :=
  ⟨idleInv_of potRegs_inv rfl rfl rfl rfl, rfl, rfl, rfl, rfl, rfl, _, rfl⟩
theorem witness_ResetCycleClearsTheEngine :
    let s := { waitingFor .w8 5 0 3 with regs := { regsOf .w8 5 with fault := true } }
    (hostReset true s).rst = true ∧ (∃ t, step { s with rst := true } = .next t ∧ t.regs.fault = false) ∧
      s.regs.fault = true ∧ s.srcPending = true :=
  ⟨rfl, ⟨_, rfl, rfl⟩, rfl, rfl⟩
theorem witness_RegistersReadZeroAfterReset : (4 : Word).toNat ≤ 4 := by decide
theorem witness_EveryStepKeepsTheInvariant :
    (readyForNext .w8 5 0x10123456789ABCDE#64).Inv ∧ ∃ t, step (readyForNext .w8 5 0x10123456789ABCDE#64) = .next t :=
  ⟨witness_anyReady_inv, _, rfl⟩
theorem witness_OutsideActionsKeepTheInvariant :
    let s := { configured .w8 7 0 with answers := [1] }
    s.Inv ∧ (∃ t, otherAgentDraw s = some (1, t)) ∧ (∃ t, restoreSource [2] s = some t) ∧ saveSource s = some [1] :=
  ⟨idleInv_of potRegs_inv rfl rfl rfl rfl, ⟨_, rfl⟩, ⟨_, rfl⟩, rfl⟩
theorem witness_OutputsFollowTheState :
    let s := { base with phase := .respond ⟨.rangeWidth, 0, 0⟩ }
    s.rst = false ∧ (∃ r, s.phase = .respond r) ∧ srcW64 (waitingFor .w32 0xFFFFFFFF 0 3) = some false ∧
      srcW64 (waitingFor .w64 0xFFFFFFFFFFFFFFFF 0 3) = some true :=
  ⟨rfl, ⟨_, rfl⟩, by decide +kernel, by decide +kernel⟩

/-! ## Witnesses: the host contract -/

/-- `range_co(71, 1500)` at u16 (45_range_mapping R232). -/
def coRequest : Request := ⟨71, 1500, .co, .w16, false⟩

theorem witness_HostRangesFitTheirWidth :
    coRequest.wf = true ∧ makeGenerator coRequest = .ok ⟨71, 1428, .w16, false⟩ ∧ base.regs.fault = false := by
  decide +kernel
theorem witness_HostAdderAgrees :
    let q : Request := ⟨-128, 127, .cc, .w8, true⟩
    q.wf = true ∧ makeGenerator q = .ok ⟨-128, 255, .w8, true⟩ ∧ (255 : Word).toNat ≤ 255 := by decide +kernel

theorem coRegs_inv : (configured .w16 1428 0x202468ACF#64).regs.Inv :=
  regsInv_of (by decide) (by decide +kernel) (by decide +kernel) (by decide +kernel) (by decide +kernel)
    (fun _ => .inr ⟨3, by decide +kernel, by decide +kernel, by decide +kernel⟩) (by decide +kernel) (by decide)

/-- Program P1's third command: RESIDUAL = 0x202468ACF, the result is 0x2CF, the caller's value 790. -/
theorem witness_RequestsNeverLeaveTheirBounds :
    let s := readyForNext .w16 1428 0x202468ACF#64
    coRequest.wf = true ∧ makeGenerator coRequest = .ok ⟨71, 1428, .w16, false⟩ ∧ s.Inv ∧ s.rst = false ∧
      s.regs.cfgValid = true ∧ s.regs.rangeMax = BitVec.ofNat 64 1428 ∧ s.regs.wsel = coRequest.width ∧
      s.Accepting .next [] ∧ view (fun t => t.phase) (step s) = some (.respond ⟨.ok, 0x2CF#64, 1⟩) ∧
      (⟨71, 1428, .w16, false⟩ : Generator).value 0x2CF#64 = 790 :=
  ⟨by decide +kernel, by decide +kernel, idleInv_of coRegs_inv rfl rfl rfl rfl, rfl, rfl, rfl, rfl, nextOnPort _ _ _,
    by decide +kernel, by decide +kernel⟩

end Sys2Proof.Tests
end

section
/-! SUPPORT. The mask generator and the bit count in closed form: `smear x` is `2 ^ size - 1` and `bitCountOf x` is `size`, where
`size` is the binary length of `x` (40_lookup R101 to R104, R112). -/

namespace Sys2Proof.Machine

/-! ### The mask's bits -/

/-- Bit `i` of `y` is the OR of the bits `i .. i + k - 1` of `x`. -/
def OrsWindow (k : Nat) (x y : Word) : Prop :=
  ∀ i, y.getLsbD i = true ↔ ∃ j, i ≤ j ∧ j < i + k ∧ x.getLsbD j = true

theorem orsWindow_one (x : Word) : OrsWindow 1 x x := fun i =>
  ⟨fun h => ⟨i, le_rfl, by omega, h⟩, fun ⟨j, h1, h2, h⟩ => by rwa [show i = j by omega]⟩

/-- One OR stage doubles the window. -/
theorem OrsWindow.stage {k : Nat} {x y : Word} (h : OrsWindow k x y) : OrsWindow (k + k) x (y ||| (y >>> k)) := by
  intro i
  rw [BitVec.getLsbD_or, BitVec.getLsbD_ushiftRight, Bool.or_eq_true, h i, h (k + i)]
  constructor
  · rintro (⟨j, h1, h2, hj⟩ | ⟨j, h1, h2, hj⟩) <;> exact ⟨j, by omega, by omega, hj⟩
  · rintro ⟨j, h1, h2, hj⟩
    by_cases hk : j < i + k
    · exact .inl ⟨j, h1, hk, hj⟩
    · exact .inr ⟨j, by omega, by omega, hj⟩

theorem smear_orsWindow (x : Word) : OrsWindow 64 x (smear x) :=
  (orsWindow_one x).stage.stage.stage.stage.stage.stage

/-- A number has a one bit at `i` or above exactly when it is at least `2 ^ i`. -/
theorem two_pow_le_iff_exists_getLsbD (x : Word) (i : Nat) :
    2 ^ i ≤ x.toNat ↔ ∃ j, i ≤ j ∧ x.getLsbD j = true := by
  constructor
  · exact Nat.exists_ge_and_testBit_of_ge_two_pow
  · rintro ⟨j, hij, hj⟩
    exact (Nat.pow_le_pow_right two_pos hij).trans (Nat.ge_two_pow_of_testBit hj)

theorem getLsbD_smear (x : Word) (i : Nat) : (smear x).getLsbD i = decide (i < x.toNat.size) := by
  rw [Bool.eq_iff_iff, smear_orsWindow x i, decide_eq_true_iff, Nat.lt_size, two_pow_le_iff_exists_getLsbD]
  constructor
  · rintro ⟨j, h1, -, hj⟩
    exact ⟨j, h1, hj⟩
  · rintro ⟨j, h1, hj⟩
    exact ⟨j, h1, by have := BitVec.lt_of_getLsbD hj; omega, hj⟩

/-! ### The count -/

theorem popCountBelow_smear (n : Nat) (x : Word) : popCountBelow n (smear x) = min n x.toNat.size := by
  induction n with
  | zero => simp [popCountBelow]
  | succ n ih =>
    rw [popCountBelow, ih, getLsbD_smear]
    by_cases h : n < x.toNat.size <;> simp [h] <;> omega

theorem size_toNat_le (x : Word) : x.toNat.size ≤ 64 := Nat.size_le.2 x.isLt

theorem bitCountOf_eq_size (x : Word) : bitCountOf x = x.toNat.size := by
  rw [bitCountOf, popCountBelow_smear, min_eq_right (size_toNat_le x)]

theorem bitCountOf_le (x : Word) : bitCountOf x ≤ 64 := bitCountOf_eq_size x ▸ size_toNat_le x

theorem bitCountOf_eq_zero (x : Word) : bitCountOf x = 0 ↔ x = 0 := by
  rw [bitCountOf_eq_size, Nat.size_eq_zero, BitVec.toNat_eq]
  rfl

theorem popCountBelow_eq_countP (n : Nat) (x : Word) :
    popCountBelow n x = (List.range n).countP fun i => x.getLsbD i := by
  induction n with
  | zero => rfl
  | succ n ih => cases h : x.getLsbD n <;> simp [popCountBelow, List.range_succ, ih, h]

/-! ### The mask as a number -/

theorem toNat_smear (x : Word) : (smear x).toNat = 2 ^ bitCountOf x - 1 := by
  apply Nat.eq_of_testBit_eq
  intro i
  rw [Nat.testBit_two_pow_sub_one, bitCountOf_eq_size]
  exact getLsbD_smear x i

theorem toNat_le_smear (x : Word) : x.toNat ≤ (smear x).toNat := by
  have := Nat.lt_size_self x.toNat
  rw [toNat_smear, bitCountOf_eq_size]
  omega

/-- The highest one bit of a word that is not 0 (40_lookup R103). -/
theorem two_pow_bitCountOf_pred_le {x : Word} (h : x ≠ 0) : 2 ^ (bitCountOf x - 1) ≤ x.toNat := by
  have := mt (bitCountOf_eq_zero x).1 h
  rw [← Nat.lt_size, ← bitCountOf_eq_size]
  omega

/-- The mask is below twice the word (40_lookup R112 (c)). -/
theorem smear_lt_two_mul {x : Word} (h : x ≠ 0) : (smear x).toNat < 2 * x.toNat := by
  have hx := two_pow_bitCountOf_pred_le h
  have hc := mt (bitCountOf_eq_zero x).1 h
  have hp := Nat.two_pow_pred_mul_two (Nat.pos_of_ne_zero hc)
  have := Nat.two_pow_pos (bitCountOf x)
  rw [toNat_smear]
  omega

theorem smear_eq_zero (x : Word) : smear x = 0 ↔ x = 0 := by
  constructor
  · intro h
    have hx := toNat_le_smear x
    rw [h] at hx
    exact BitVec.eq_of_toNat_eq (Nat.le_zero.1 hx)
  · rintro rfl
    decide

/-- A word of `n` ones has bit count `n`. -/
theorem bitCountOf_of_toNat {x : Word} {n : Nat} (h : x.toNat = 2 ^ n - 1) : bitCountOf x = n := by
  rw [bitCountOf_eq_size]
  refine eq_of_forall_lt_iff fun m => ?_
  rw [Nat.lt_size, h, Nat.le_sub_one_iff_lt (Nat.two_pow_pos n), Nat.pow_lt_pow_iff_right (by decide)]

end Sys2Proof.Machine
end

section
/-! SUPPORT. CFG's registers and the classifier: what a mode says of the range, that CFG leaves registers that meet the
invariant, and the configuration laws of registers that meet it (42_config_next R140 to R146, 10_state R22 to R27, R33). -/

namespace Sys2Proof.Machine

/-- The five lines of the classifier, with what each says (42_config_next R141). -/
theorem classify_cases (w : Width) (r mask : Word) (bc : Nat) :
    (classify w r mask bc = .bypass ∧ r.toNat = widthMax w ∧ (w = .w32 ∨ w = .w64)) ∨
    (classify w r mask bc = .const ∧ r = 0) ∨
    (classify w r mask bc = .popot ∧ r ≠ 0 ∧ mask = r ∧ 64 % bc = 0) ∨
    (classify w r mask bc = .pot ∧ r ≠ 0 ∧ mask = r) ∨
    (classify w r mask bc = .any ∧ r ≠ 0 ∧ mask ≠ r) := by
  unfold classify
  split_ifs <;> simp_all

theorem excessOf_le {b : Nat} (h : b ≤ 64) : excessOf b ≤ 31 := by
  revert b
  decide

/-! ### The registers' invariant -/

theorem residualOk_zero (b : Nat) : ResidualOk b 0 := .inl rfl

theorem Regs.reset_inv : Regs.reset.Inv := by
  constructor <;> simp [Regs.reset, Mode.buffered]

/-- A successful CFG leaves registers that meet the invariant (10_state R33). -/
theorem configuredRegs_inv {w : Width} {r : Word} {old : Regs} (range : r.toNat ≤ widthMax w) (fault : old.fault = false) :
    (configuredRegs w r old).Inv where
  unconfigured h := nomatch h
  range _ := range
  mask _ := rfl
  count _ := Nat.mod_eq_of_lt ((bitCountOf_le r).trans_lt (by decide))
  excess _ := Nat.mod_eq_of_lt ((excessOf_le (bitCountOf_le r)).trans_lt (by decide))
  mode _ := rfl
  buffer _ := residualOk_zero _
  noBuffer _ := rfl
  faulted h := by simp [configuredRegs, fault] at h

section
variable {r : Regs} (inv : r.Inv) (configured : r.cfgValid = true)
include inv configured

/-- A well-formed buffer is all the invariant asks of RESIDUAL in a buffered mode (10_state R26). -/
theorem Regs.Inv.setResidual (buffered : r.mode.buffered = true) {v : Word} (ok : ResidualOk (groupBits r) v) :
    { r with residual := v }.Inv where
  unconfigured h := by simp [configured] at h
  range := inv.range
  mask := inv.mask
  count := inv.count
  excess := inv.excess
  mode := inv.mode
  buffer _ := ok
  noBuffer h := by simp [buffered] at h
  faulted := inv.faulted

/-- FAULT may be set in mode ANY (60_exceptions R254). -/
theorem Regs.Inv.setFault (mode : r.mode = .any) : { r with fault := true }.Inv where
  unconfigured h := by simp [configured] at h
  range := inv.range
  mask := inv.mask
  count := inv.count
  excess := inv.excess
  mode := inv.mode
  buffer := inv.buffer
  noBuffer := inv.noBuffer
  faulted _ := mode

/-! ### What the invariant says of a configured engine -/

theorem Regs.Inv.groupBits_eq : groupBits r = bitCountOf r.rangeMax := inv.count configured

theorem Regs.Inv.excessBits_eq : excessBits r = excessOf (groupBits r) := by
  rw [inv.groupBits_eq configured]
  exact inv.excess configured

theorem Regs.Inv.groupBits_le : groupBits r ≤ 64 := inv.groupBits_eq configured ▸ bitCountOf_le _

theorem Regs.Inv.groupBits_eq_zero : groupBits r = 0 ↔ r.rangeMax = 0 := by
  rw [inv.groupBits_eq configured, bitCountOf_eq_zero]

/-- The mask is `BIT_COUNT` ones (10_state R22). -/
theorem Regs.Inv.toNat_bitMask : r.bitMask.toNat = 2 ^ groupBits r - 1 := by
  rw [inv.mask configured, toNat_smear, inv.groupBits_eq configured]

/-- The mode, read back as what it says of the range (42_config_next R141, 10_state R24). -/
theorem Regs.Inv.mode_cases :
    (r.mode = .bypass ∧ r.rangeMax.toNat = widthMax r.wsel ∧ (r.wsel = .w32 ∨ r.wsel = .w64)) ∨
    (r.mode = .const ∧ r.rangeMax = 0) ∨
    (r.mode = .popot ∧ r.rangeMax ≠ 0 ∧ r.bitMask = r.rangeMax ∧ 64 % groupBits r = 0) ∨
    (r.mode = .pot ∧ r.rangeMax ≠ 0 ∧ r.bitMask = r.rangeMax) ∨
    (r.mode = .any ∧ r.rangeMax ≠ 0 ∧ r.bitMask ≠ r.rangeMax) := by
  rw [inv.mode configured, inv.mask configured, inv.groupBits_eq configured]
  exact classify_cases _ _ _ _

theorem Regs.Inv.rangeMax_ne_zero (buffered : r.mode.buffered = true) : r.rangeMax ≠ 0 := by
  rcases inv.mode_cases configured with ⟨m, -⟩ | ⟨m, -⟩ | ⟨-, h, -⟩ | ⟨-, h, -⟩ | ⟨-, h, -⟩
  · simp [m, Mode.buffered] at buffered
  · simp [m, Mode.buffered] at buffered
  all_goals exact h

theorem Regs.Inv.groupBits_pos (buffered : r.mode.buffered = true) : 1 ≤ groupBits r :=
  Nat.pos_of_ne_zero (mt (inv.groupBits_eq_zero configured).1 (inv.rangeMax_ne_zero configured buffered))

/-- `BIT_COUNT` is the number of ones of the mask (10_state R33). -/
theorem Regs.Inv.groupBits_eq_countP :
    groupBits r = (List.range 64).countP fun i => r.bitMask.getLsbD i := by
  rw [inv.groupBits_eq configured, bitCountOf, popCountBelow_eq_countP, inv.mask configured]

theorem Regs.Inv.bitCount_eq_zero : r.bitCount = 0 ↔ r.bitMask = 0 := by
  rw [inv.mask configured, smear_eq_zero, ← inv.groupBits_eq_zero configured, BitVec.toNat_eq]
  rfl

theorem Regs.Inv.excessBits_of_pos (pos : 1 ≤ groupBits r) : excessBits r = 64 % groupBits r := by
  rw [inv.excessBits_eq configured, excessOf, if_pos pos]

theorem Regs.Inv.excessBits_of_zero (zero : groupBits r = 0) : excessBits r = 0 := by
  rw [inv.excessBits_eq configured, zero]
  rfl

theorem Regs.Inv.excessBits_le : excessBits r ≤ 31 := by
  rw [inv.excessBits_eq configured]
  exact excessOf_le (inv.groupBits_le configured)

theorem Regs.Inv.rangeMax_le_bitMask : r.rangeMax.toNat ≤ r.bitMask.toNat :=
  inv.mask configured ▸ toNat_le_smear _

/-- A power of two has no rejected candidate (42_config_next R166, R167). -/
theorem Regs.Inv.bitMask_of_pow2 (mode : r.mode = .pot ∨ r.mode = .popot) : r.bitMask = r.rangeMax := by
  rcases inv.mode_cases configured with ⟨m, -⟩ | ⟨m, -⟩ | ⟨-, -, h, -⟩ | ⟨-, -, h⟩ | ⟨m, -⟩
  · simp [m] at mode
  · simp [m] at mode
  · exact h
  · exact h
  · simp [m] at mode

/-- In mode ANY candidates above the range exist, and are fewer than the others (42_config_next R164). -/
theorem Regs.Inv.bitMask_of_any (mode : r.mode = .any) :
    r.rangeMax.toNat < r.bitMask.toNat ∧ r.bitMask.toNat ≤ 2 * r.rangeMax.toNat := by
  rcases inv.mode_cases configured with ⟨m, -⟩ | ⟨m, -⟩ | ⟨m, -⟩ | ⟨m, -⟩ | ⟨-, nonzero, differs⟩
  · simp [m] at mode
  · simp [m] at mode
  · simp [m] at mode
  · simp [m] at mode
  · refine ⟨(inv.rangeMax_le_bitMask configured).lt_of_ne fun h => differs (BitVec.eq_of_toNat_eq h.symm), ?_⟩
    rw [inv.mask configured]
    exact (smear_lt_two_mul nonzero).le

/-- A range as wide as a BYPASS width has that many bits, which divide 64 (42_config_next R144). -/
theorem Regs.Inv.groupBits_of_widest (range : r.rangeMax.toNat = widthMax r.wsel) : groupBits r = r.wsel.bits := by
  rw [inv.groupBits_eq configured]
  exact bitCountOf_of_toNat range

/-- Only ANY and POT discard bits of a word (10_state R24). -/
theorem Regs.Inv.excessBits_of_exact (notAny : r.mode ≠ .any) (notPot : r.mode ≠ .pot) : excessBits r = 0 := by
  rw [inv.excessBits_eq configured]
  rcases inv.mode_cases configured with ⟨-, range, wide⟩ | ⟨-, zero⟩ | ⟨-, -, -, divides⟩ | ⟨m, -⟩ | ⟨m, -⟩
  · rw [inv.groupBits_of_widest configured range]
    rcases wide with h | h <;> rw [h] <;> rfl
  · rw [(inv.groupBits_eq_zero configured).2 zero]
    rfl
  · rw [excessOf, divides, ite_self]
  · exact absurd m notPot
  · exact absurd m notAny

theorem Regs.Inv.bufferParams (buffered : r.mode.buffered = true) : BufferParams r :=
  have pos := inv.groupBits_pos configured buffered
  ⟨pos, inv.groupBits_le configured, inv.excessBits_of_pos configured pos, inv.toNat_bitMask configured⟩

end

end Sys2Proof.Machine
end

section
/-! SUPPORT. The residual buffer (41_buffer R131 to R135, 10_state R26): how many groups it holds, and what an extraction and a
refill do to that number. -/

namespace Sys2Proof.Machine

/-- The buffer of a buffered mode with its number of groups: never filled, or `j` groups under the sentinel (10_state R26). -/
def BuffersGroups (b j : Nat) (v : Word) : Prop :=
  (v = 0 ∧ j = 0) ∨ HoldsGroups b j v

theorem BuffersGroups.residualOk {b j : Nat} {v : Word} (few : j < 64 / b) (h : BuffersGroups b j v) : ResidualOk b v := by
  rcases h with ⟨h, -⟩ | h
  · exact .inl h
  · exact .inr ⟨j, few, h⟩

theorem ResidualOk.exists_buffersGroups {b : Nat} {v : Word} (groups : 0 < 64 / b) (h : ResidualOk b v) :
    ∃ j, j < 64 / b ∧ BuffersGroups b j v := by
  rcases h with h | ⟨j, few, h⟩
  · exact ⟨0, groups, .inl ⟨h, rfl⟩⟩
  · exact ⟨j, few, .inr h⟩

/-- A buffer with no group left is 0 or the bare sentinel (41_buffer R131). -/
theorem BuffersGroups.le_one {b : Nat} {v : Word} (h : BuffersGroups b 0 v) : v.toNat ≤ 1 := by
  rcases h with ⟨rfl, -⟩ | ⟨-, h⟩
  · decide
  · rw [Nat.zero_mul] at h
    omega

theorem BuffersGroups.holdsGroups_succ {b j : Nat} {v : Word} (h : BuffersGroups b (j + 1) v) : HoldsGroups b (j + 1) v := by
  rcases h with ⟨-, h⟩ | h
  · omega
  · exact h

/-- With a group left, RESIDUAL is above 1 (41_buffer R131). -/
theorem BuffersGroups.one_lt {b j : Nat} {v : Word} (pos : 1 ≤ b) (h : BuffersGroups b (j + 1) v) : 1 < v.toNat := by
  have hb : 1 < 2 ^ ((j + 1) * b) := Nat.one_lt_two_pow (Nat.mul_ne_zero (by omega) (by omega))
  exact hb.trans_le h.holdsGroups_succ.1

/-- Extraction takes one group (41_buffer R132). -/
theorem BuffersGroups.shift {b j : Nat} {v : Word} (h : BuffersGroups b (j + 1) v) : BuffersGroups b j (v >>> b) := by
  obtain ⟨lo, hi⟩ := h.holdsGroups_succ
  right
  have hb := Nat.two_pow_pos b
  have hsucc : (j + 1) * b = j * b + b := by rw [Nat.succ_mul]
  rw [hsucc] at lo hi
  unfold HoldsGroups
  rw [BitVec.toNat_ushiftRight, Nat.shiftRight_eq_div_pow, Nat.le_div_iff_mul_le hb, Nat.div_lt_iff_lt_mul hb, ← Nat.pow_add,
    ← Nat.pow_add]
  exact ⟨lo, by rwa [show j * b + 1 + b = j * b + b + 1 by omega]⟩

/-- A sentinel at bit `n < 64` above a word of `n` bits. -/
theorem sentinel_bounds {n : Nat} {v : Word} (place : n < 64) (small : v.toNat < 2 ^ n) :
    2 ^ n ≤ (v ||| (1#64 <<< n)).toNat ∧ (v ||| (1#64 <<< n)).toNat < 2 ^ (n + 1) := by
  have hs : (1#64 <<< n).toNat = 2 ^ n := by rw [← BitVec.twoPow_eq, BitVec.toNat_twoPow_of_lt place]
  have hlt : 2 ^ n < 2 ^ (n + 1) := Nat.pow_lt_pow_right (by decide) (Nat.lt_succ_self n)
  rw [BitVec.toNat_or, hs]
  exact ⟨Nat.right_le_or, Nat.or_lt_two_pow (small.trans hlt) hlt⟩

/-- The refill's own candidate leaves `64 / b - 1` groups, and the sentinel stands above them (41_buffer R133 to R135). -/
theorem refillResidual_holdsGroups {r : Regs} (pos : 1 ≤ groupBits r) (le : groupBits r ≤ 64)
    (excess : excessBits r = 64 % groupBits r) (w : Word) :
    HoldsGroups (groupBits r) (64 / groupBits r - 1) (refillResidual r w) := by
  have hdiv := Nat.div_add_mod 64 (groupBits r)
  have hpos : 1 ≤ 64 / groupBits r := Nat.div_pos le pos
  have place : 64 - groupBits r - excessBits r = (64 / groupBits r - 1) * groupBits r := by
    rw [excess, Nat.sub_mul, Nat.mul_comm (64 / groupBits r)]
    omega
  have fits : groupBits r + excessBits r ≤ 64 := by
    have := Nat.le_mul_of_pos_right (groupBits r) hpos
    omega
  have small : ((w >>> excessBits r) >>> groupBits r).toNat < 2 ^ (64 - groupBits r - excessBits r) := by
    rw [← BitVec.shiftRight_add, BitVec.toNat_ushiftRight, Nat.shiftRight_eq_div_pow, Nat.div_lt_iff_lt_mul (Nat.two_pow_pos _),
      ← Nat.pow_add]
    exact w.isLt.trans_le (Nat.pow_le_pow_right (by decide) (by omega))
  unfold HoldsGroups refillResidual
  rw [← place]
  exact sentinel_bounds (by omega) small

end Sys2Proof.Machine
end

section
/-! SUPPORT. The state's invariant in the states a step can rest in, along the phases of a NEXT, and over a whole step
(42_config_next R163, R165, R170). -/

namespace Sys2Proof.Machine

/-! ### The states a step rests in -/

/-- In IDLE, or holding a response, the invariant asks little besides the registers' own. -/
theorem inv_of_rest {s : State} (regs : s.regs.Inv) (unasked : s.srcPending = false)
    (phase : s.phase = .idle ∨ ∃ r, s.phase = .respond r ∧ (r.status ≠ .ok → r.data = 0 ∧ r.aux = 0))
    (inReset : s.rst = true → s.regs = Regs.reset ∧ s.phase = .idle ∧ s.iter = 0)
    (unstarted : s.regs.cfgValid = false → s.iter = 0) : s.Inv := by
  have notWaiting : s.phase ≠ .srcwait := by
    rcases phase with h | ⟨r, h, -⟩ <;> simp [h]
  refine ⟨regs, by simp [unasked, notWaiting], ?_, ?_, fun h => absurd h notWaiting, fun h => absurd h notWaiting, fun h => ?_,
    unstarted, ?_⟩
  · rcases phase with h | ⟨r, h, -⟩ <;> simp [h]
  · rcases phase with h | ⟨r, h, -⟩ <;> simp [h]
  · obtain ⟨hregs, hphase, hiter⟩ := inReset h
    exact ⟨hregs, hphase, hiter, unasked⟩
  · intro q hq
    rcases phase with h | ⟨r, h, zeros⟩
    · simp [h] at hq
    · obtain rfl : r = q := by simpa [h] using hq
      exact zeros

/-- An engine out of reset that answers. -/
theorem inv_of_respond {s : State} {r : Response} (regs : s.regs.Inv) (unasked : s.srcPending = false) (rst : s.rst = false)
    (phase : s.phase = .respond r) (zeros : r.status ≠ .ok → r.data = 0 ∧ r.aux = 0)
    (unstarted : s.regs.cfgValid = false → s.iter = 0) : s.Inv :=
  inv_of_rest regs unasked (.inr ⟨r, phase, zeros⟩) (fun h => by simp [rst] at h) unstarted

/-- A NEXT that asks for a word meets the invariant if it drew with cause (20_memory R57, 42_config_next R165). -/
theorem issueRequest_inv {s : State} (regs : s.regs.Inv) (configured : s.regs.cfgValid = true)
    (unfaulted : s.regs.fault = false) (rst : s.rst = false)
    (draws : s.regs.mode = .bypass ∨ s.regs.mode.buffered = true ∧ s.regs.residual.toNat ≤ 1)
    (guarded : s.params.debugGuard = true → s.iter < s.params.guardLimit) : (issueRequest s).Inv where
  regs := regs
  pending := by simp
  notExtract := by simp
  notArbitrate := by simp
  waiting _ := ⟨configured, unfaulted, draws⟩
  guarded _ _ := guarded
  inReset h := by simp [rst] at h
  unstarted h := by simp [configured] at h
  errors r h := by simp at h

theorem resetCycle_inv (s : State) : (resetCycle s).Inv :=
  inv_of_rest Regs.reset_inv rfl (.inl rfl) (fun _ => ⟨rfl, rfl, rfl⟩) (fun _ => rfl)

theorem stateReset_inv : State.reset.Inv :=
  inv_of_rest Regs.reset_inv rfl (.inl rfl) (fun h => nomatch h) (fun _ => rfl)

section
variable {s : State} (inv : s.Inv)
include inv

/-- Commands and answers waiting at the ports are no part of the invariant. -/
theorem State.Inv.withInputs (cmds : List Command) (answers : List Word) : { s with cmds := cmds, answers := answers }.Inv :=
  ⟨inv.regs, inv.pending, inv.notExtract, inv.notArbitrate, inv.waiting, inv.guarded, inv.inReset, inv.unstarted, inv.errors⟩

theorem State.Inv.unasked (phase : s.phase ≠ .srcwait) : s.srcPending = false := by
  simpa [phase] using inv.pending

/-- A response held in RESPOND is given out of reset. -/
theorem State.Inv.rst_eq_false (phase : s.phase ≠ .idle) : s.rst = false := by
  by_contra h
  exact phase (inv.inReset (by simpa using h)).2.1

end

/-! ### A NEXT that draws from the buffer -/

/-- A running NEXT with `j` groups buffered, between two phases that wait for nobody. -/
structure State.Drawing (s : State) (j : Nat) : Prop where
  regs : s.regs.Inv
  configured : s.regs.cfgValid = true
  unfaulted : s.regs.fault = false
  buffered : s.regs.mode.buffered = true
  groups : BuffersGroups (groupBits s.regs) j s.regs.residual
  few : j < 64 / groupBits s.regs
  unasked : s.srcPending = false
  rst : s.rst = false
  guarded : s.params.debugGuard = true → s.iter < s.params.guardLimit

section
variable {s : State} {j : Nat}

theorem State.Drawing.groupBits_pos (d : s.Drawing j) : 1 ≤ groupBits s.regs :=
  d.regs.groupBits_pos d.configured d.buffered

/-- With no group left, EXTRACT asks for a word (41_buffer R131). -/
theorem State.Drawing.extractPhase_of_empty (d : s.Drawing 0) : extractPhase s = issueRequest s := by
  have := d.groups.le_one
  rcases extractPhase_cases s with ⟨h, -⟩ | ⟨-, h⟩
  · simp only [hasGroup, decide_eq_true_eq] at h
    omega
  · exact h

theorem State.Drawing.request_inv (d : s.Drawing 0) : (issueRequest s).Inv :=
  issueRequest_inv d.regs d.configured d.unfaulted d.rst (.inr ⟨d.buffered, d.groups.le_one⟩) d.guarded

/-- With a group left, EXTRACT takes it (41_buffer R131, R132). -/
theorem State.Drawing.extractPhase_of_group (d : s.Drawing (j + 1)) :
    extractPhase s = { extractBuffered s with phase := .arbitrate } := by
  have := d.groups.one_lt d.groupBits_pos
  rcases extractPhase_cases s with ⟨-, h⟩ | ⟨h, -⟩
  · exact h
  · simp only [hasGroup, decide_eq_false_iff_not] at h
    omega

theorem State.Drawing.extract (d : s.Drawing (j + 1)) : State.Drawing { extractBuffered s with phase := .arbitrate } j where
  regs := d.regs.setResidual d.configured d.buffered (d.groups.shift.residualOk (Nat.lt_of_succ_lt d.few))
  configured := d.configured
  unfaulted := d.unfaulted
  buffered := d.buffered
  groups := d.groups.shift
  few := Nat.lt_of_succ_lt d.few
  unasked := d.unasked
  rst := d.rst
  guarded := d.guarded

/-- A rejected candidate is one of mode ANY (42_config_next R163). -/
theorem mode_eq_any_of_not_accepts {r : Regs} {cand : Word} (h : accepts r cand = false) : r.mode = .any := by
  simp only [accepts, Bool.or_eq_false_iff, bne_eq_false_iff_eq] at h
  exact h.1

/-- ARBITRATE answers, or leaves a NEXT that the guard still lets run (42_config_next R163, R165). -/
theorem State.Drawing.arbitrate (d : s.Drawing j) :
    (∃ r, (arbitratePhase s).phase = .respond r ∧ (arbitratePhase s).Inv) ∨
    ((arbitratePhase s).phase = .extract ∧ (arbitratePhase s).Drawing j) := by
  have started : s.regs.cfgValid ≠ false := by simp [d.configured]
  rcases arbitratePhase_cases s with ⟨-, h⟩ | ⟨rejected, -, h⟩ | ⟨-, silent, h⟩ <;> rw [h]
  · exact .inl ⟨_, rfl, inv_of_respond d.regs d.unasked d.rst rfl (fun h => absurd rfl h) (fun h => absurd h started)⟩
  · refine .inl ⟨_, rfl, inv_of_respond ?_ d.unasked d.rst rfl (fun _ => ⟨rfl, rfl⟩) (fun h => absurd h started)⟩
    exact d.regs.setFault d.configured (mode_eq_any_of_not_accepts rejected)
  · refine .inr ⟨rfl, ⟨d.regs, d.configured, d.unfaulted, d.buffered, d.groups, d.few, d.unasked, d.rst, fun hg => ?_⟩⟩
    simpa [guardFires, show s.params.debugGuard = true from hg] using silent

/-- ARBITRATE and what follows it, given what follows a rejection. -/
theorem State.Drawing.runPhases_arbitrate_inv (d : s.Drawing j) (phase : s.phase = .arbitrate) {n : Nat}
    (rejected : ∀ t : State, t.Drawing j → t.phase = .extract → (runPhases n t).Inv) : (runPhases (n + 1) s).Inv := by
  rw [runPhases_arbitrate phase]
  rcases d.arbitrate with ⟨r, hr, inv⟩ | ⟨he, d'⟩
  · rwa [runPhases_respond hr]
  · exact rejected _ d' he

/-- From EXTRACT a NEXT comes to rest within two phases for each buffered group and one for the request after them
(41_buffer R135; log 17). -/
theorem State.Drawing.runPhases_extract_inv (d : s.Drawing j) (phase : s.phase = .extract) {n : Nat} (fuel : 2 * j < n) :
    (runPhases n s).Inv := by
  induction j generalizing s n with
  | zero =>
    obtain ⟨m, rfl⟩ := Nat.exists_eq_add_one_of_ne_zero (Nat.ne_of_gt fuel)
    rw [runPhases_extract phase, d.extractPhase_of_empty, runPhases_srcwait rfl]
    exact d.request_inv
  | succ j ih =>
    obtain ⟨m, rfl⟩ : ∃ m, n = m + 1 + 1 := ⟨n - 2, by omega⟩
    rw [runPhases_extract phase, d.extractPhase_of_group]
    exact d.extract.runPhases_arbitrate_inv rfl fun t dt ht => ih dt ht (by omega)

/-- A word's groups, and so the phases they need, are few enough for one step (log 17). -/
theorem State.Drawing.two_mul_add_one_lt_phaseFuel (d : s.Drawing j) : 2 * j + 1 < phaseFuel := by
  have := d.few.trans_le (Nat.div_le_self 64 _)
  unfold phaseFuel
  omega

end

section
variable {s : State} (inv : s.Inv)
include inv

/-! ### The commands -/

/-- NEXT's loop from a configured, unfaulted engine (42_config_next R163). -/
theorem nextBuffered_inv (rst : s.rst = false) (idle : s.phase = .idle) (configured : s.regs.cfgValid = true)
    (unfaulted : s.regs.fault = false) (buffered : s.regs.mode.buffered = true) : (nextBuffered (startNext s)).Inv := by
  have pos := inv.regs.groupBits_pos configured buffered
  obtain ⟨j, few, groups⟩ :=
    (inv.regs.buffer buffered).exists_buffersGroups (Nat.div_pos (inv.regs.groupBits_le configured) pos)
  have d : State.Drawing { startNext s with phase := .extract } j :=
    ⟨inv.regs, configured, unfaulted, buffered, groups, few, inv.unasked (by simp [idle]), rst, fun _ => Nat.succ_pos _⟩
  exact d.runPhases_extract_inv rfl (Nat.lt_of_succ_lt d.two_mul_add_one_lt_phaseFuel)

/-- NEXT once its checks have passed (42_config_next R160). -/
theorem nextByMode_inv (rst : s.rst = false) (idle : s.phase = .idle) (configured : s.regs.cfgValid = true)
    (unfaulted : s.regs.fault = false) : (nextByMode (startNext s)).Inv := by
  have unasked := inv.unasked (by simp [idle])
  rcases nextByMode_cases (startNext s) with ⟨-, h⟩ | ⟨mode, h⟩ | ⟨buffered, h⟩ | ⟨-, h⟩ <;> rw [h]
  · exact inv_of_respond inv.regs unasked rst rfl (fun h => absurd rfl h) (fun _ => rfl)
  · exact issueRequest_inv inv.regs configured unfaulted rst (.inl mode) (fun _ => Nat.succ_pos _)
  · exact nextBuffered_inv inv rst idle configured unfaulted buffered
  · exact inv_of_respond inv.regs unasked rst rfl (fun _ => ⟨rfl, rfl⟩) (fun _ => rfl)

end

/-- What an executed command can do, said once: CFG configures, NEXT passes its checks and starts, or a response is given and
nothing else changes. -/
inductive Executed (i : Instr) (s : State) : State → Prop where
  | configured (w : Width) (r : Word) (aux : Byte) (cfg : i = cfgInstr w r) (unfaulted : s.regs.fault = false)
      (range : r.toNat ≤ widthMax w) : Executed i s (respond .ok 0 aux { s with regs := configuredRegs w r s.regs })
  | started (next : i = .next) (unfaulted : s.regs.fault = false) (configured : s.regs.cfgValid = true) :
      Executed i s (nextByMode (startNext s))
  | answered (st : Status) (d : Word) (aux : Byte) (zeros : st ≠ .ok → d = 0 ∧ aux = 0) : Executed i s (respond st d aux s)

section
variable {i : Instr} {s : State}

theorem Executed.ok (d : Word) (aux : Byte) : Executed i s (respond .ok d aux s) :=
  .answered _ _ _ fun h => absurd rfl h

theorem Executed.error (st : Status) : Executed i s (respondError st s) :=
  .answered _ _ _ fun _ => ⟨rfl, rfl⟩

theorem executed_configure (w : Width) (r : Word) : Executed (cfgInstr w r) s (configure w r s) := by
  rcases configure_cases w r s with ⟨-, h⟩ | ⟨-, -, h⟩ | ⟨unfaulted, range, h⟩ <;> rw [h]
  · exact .error _
  · exact .error _
  · exact .configured w r _ rfl unfaulted range

theorem executed_of_exec {t : State} (h : exec i s = .next t) : Executed i s t := by
  cases i with
  | nop => exact Host.Outcome.next.inj h ▸ .ok _ _
  | cfgU8 r => exact Host.Outcome.next.inj h ▸ executed_configure .w8 r
  | cfgU16 r => exact Host.Outcome.next.inj h ▸ executed_configure .w16 r
  | cfgU32 r => exact Host.Outcome.next.inj h ▸ executed_configure .w32 r
  | cfgU64 r => exact Host.Outcome.next.inj h ▸ executed_configure .w64 r
  | lookup x => exact Host.Outcome.next.inj h ▸ .ok _ _
  | ispow2 x => exact Host.Outcome.next.inj h ▸ .ok _ _
  | next =>
    rcases execNext_cases s with ⟨-, k⟩ | ⟨-, -, k⟩ | ⟨unfaulted, configured, k⟩ <;>
      obtain rfl := Host.Outcome.next.inj (k.symm.trans h)
    · exact .error _
    · exact .error _
    · exact .started rfl unfaulted configured
  | rdreg n =>
    rcases execRdreg_cases n s with ⟨v, -, k⟩ | ⟨-, k⟩ <;> obtain rfl := Host.Outcome.next.inj (k.symm.trans h)
    · exact .ok _ _
    · exact .error _

end

section
variable {s t : State} (inv : s.Inv)
include inv

/-- A response out of IDLE that leaves the registers and ITER. -/
theorem respond_inv (rst : s.rst = false) (idle : s.phase = .idle) {st : Status} {d : Word} {a : Byte}
    (zeros : st ≠ .ok → d = 0 ∧ a = 0) : (respond st d a s).Inv :=
  inv_of_respond inv.regs (inv.unasked (by simp [idle])) rst rfl zeros inv.unstarted

theorem exec_inv {i : Instr} (rst : s.rst = false) (idle : s.phase = .idle) (h : exec i s = .next t) : t.Inv := by
  have unasked := inv.unasked (by simp [idle])
  cases executed_of_exec h with
  | configured w r aux cfg unfaulted range =>
    exact inv_of_respond (configuredRegs_inv range unfaulted) unasked rst rfl (fun h => absurd rfl h) (fun h => nomatch h)
  | started next unfaulted configured => exact nextByMode_inv inv rst idle configured unfaulted
  | answered st d aux zeros => exact respond_inv inv rst idle zeros

theorem acceptCommand_inv {c : Command} (rst : s.rst = false) (idle : s.phase = .idle)
    (h : acceptCommand c s = .next t) : t.Inv := by
  rcases acceptCommand_cases c s with ⟨i, -, k⟩ | ⟨e, -, k⟩ <;> rw [k] at h
  · exact exec_inv inv rst idle h
  · obtain rfl := Host.Outcome.next.inj h
    exact respond_inv inv rst idle fun _ => ⟨rfl, rfl⟩

/-! ### The answer and the response -/

/-- The refill's state, before its candidate is judged (41_buffer R133). -/
theorem State.Inv.drawing_refill (waits : s.phase = .srcwait) (buffered : s.regs.mode.buffered = true) (w : Word) :
    State.Drawing { finishRefill (latchAnswer w s) with phase := .arbitrate } (64 / groupBits s.regs - 1) := by
  obtain ⟨configured, unfaulted, -⟩ := inv.waiting waits
  have pos := inv.regs.groupBits_pos configured buffered
  have le := inv.regs.groupBits_le configured
  have excess := inv.regs.excessBits_of_pos configured pos
  have few : 64 / groupBits s.regs - 1 < 64 / groupBits s.regs := Nat.sub_one_lt (Nat.div_pos le pos).ne'
  have groups : BuffersGroups (groupBits s.regs) (64 / groupBits s.regs - 1)
      (refillResidual s.regs (latchedWord (srcWidth s.regs) w)) := .inr (refillResidual_holdsGroups pos le excess _)
  exact ⟨inv.regs.setResidual configured buffered (groups.residualOk few), configured, unfaulted, buffered, groups, few, rfl,
    inv.rst_eq_false (by simp [waits]), inv.guarded waits buffered⟩

theorem takeAnswer_inv (waits : s.phase = .srcwait) (w : Word) : (takeAnswer w s).Inv := by
  obtain ⟨configured, -, draws⟩ := inv.waiting waits
  rcases takeAnswer_cases w s with ⟨-, h⟩ | ⟨mode, h⟩ <;> rw [h]
  · exact inv_of_respond inv.regs rfl (inv.rst_eq_false (by simp [waits])) rfl (fun h => absurd rfl h) inv.unstarted
  · obtain ⟨buffered, -⟩ := draws.resolve_left mode
    have d := inv.drawing_refill waits buffered w
    exact d.runPhases_arbitrate_inv (n := 127) rfl fun t dt ht =>
      dt.runPhases_extract_inv ht (Nat.lt_of_succ_lt_succ dt.two_mul_add_one_lt_phaseFuel)

theorem deliver_inv {r : Response} (phase : s.phase = .respond r) : (deliver r s).Inv :=
  inv_of_rest inv.regs (inv.unasked (by simp [phase])) (.inl rfl)
    (fun h => by simp [inv.rst_eq_false (by simp [phase])] at h) inv.unstarted

/-! ### The step -/

theorem step_inv (h : step s = .next t) : t.Inv := by
  rcases step_cases h with ⟨-, rfl⟩ | ⟨rst, idle, c, rest, -, accepted⟩ | ⟨-, waits, -, w, rest, -, rfl⟩ |
    ⟨-, ⟨r, phase, rfl⟩, -⟩ | ⟨-, phase, -⟩
  · exact resetCycle_inv s
  · exact acceptCommand_inv (inv.withInputs rest s.answers) rst idle accepted
  · exact takeAnswer_inv (inv.withInputs s.cmds rest) waits w
  · exact deliver_inv inv phase
  · exact absurd phase (by simp [inv.notExtract, inv.notArbitrate])

end

end Sys2Proof.Machine
end

section
/-! SUPPORT. Who writes the registers (10_state R20, R25; 43_control R202). -/

namespace Sys2Proof.Machine

/-- NEXT leaves the registers, or writes RESIDUAL and FAULT in a buffered mode (10_state R20, R25). -/
theorem nextByMode_writes {s : State} (written : (nextByMode s).regs ≠ s.regs) :
    SameConfig s (nextByMode s) ∧ s.regs.mode.buffered = true := by
  rcases nextByMode_cases s with ⟨-, h⟩ | ⟨-, h⟩ | ⟨buffered, h⟩ | ⟨-, h⟩ <;> rw [h] at written ⊢
  · exact absurd rfl written
  · exact absurd rfl written
  · exact ⟨runPhases_sameConfig _ _, buffered⟩
  · exact absurd rfl written

/-- So does a taken answer, if the mode is one that draws (10_state R25, 42_config_next R162). -/
theorem takeAnswer_writes {s : State} {w : Word} (draws : s.regs.mode = .bypass ∨ s.regs.mode.buffered = true)
    (written : (takeAnswer w s).regs ≠ s.regs) : SameConfig s (takeAnswer w s) ∧ s.regs.mode.buffered = true := by
  rcases takeAnswer_cases w s with ⟨-, h⟩ | ⟨mode, h⟩ <;> rw [h] at written ⊢
  · exact absurd rfl written
  · exact ⟨SameConfig.trans rfl (runPhases_sameConfig _ _), draws.resolve_left mode⟩

/-- A command that writes registers is CFG, or NEXT within its bounds (10_state R20, 43_control R202). -/
theorem acceptCommand_writes {c : Command} {s t : State} (h : acceptCommand c s = .next t) (written : t.regs ≠ s.regs) :
    (∃ w r, decode c = .ok (cfgInstr w r)) ∨
    (decode c = .ok .next ∧ SameConfig s t ∧ s.regs.mode.buffered = true) := by
  rcases acceptCommand_cases c s with ⟨i, decoded, k⟩ | ⟨e, -, k⟩ <;> rw [k] at h
  · cases executed_of_exec h with
    | configured w r aux cfg unfaulted range => exact .inl ⟨w, r, cfg ▸ decoded⟩
    | started next unfaulted configured => exact .inr ⟨next ▸ decoded, nextByMode_writes written⟩
    | answered st d aux zeros => exact absurd rfl written
  · obtain rfl := Host.Outcome.next.inj h
    exact absurd rfl written

end Sys2Proof.Machine
end

section
/-! The obligations on the state: its invariant, the configuration laws and the registers' writers. -/

namespace Sys2Proof.Machine

/-- Settles O52: every register is at reset, and nothing is pending. -/
theorem resetMeetsTheInvariant : Obligations.ResetMeetsTheInvariant := stateReset_inv

/-- Settles O53, by the kinds of step; within a NEXT, by induction on the number of buffered groups. -/
theorem everyStepKeepsTheInvariant : Obligations.EveryStepKeepsTheInvariant := fun _ _ inv h => step_inv inv h

/-- Settles O19: the mask is `2 ^ BIT_COUNT - 1` by the closed form of `smear`, and each mode's line of the classifier gives its
clause. -/
theorem configurationLaws : Obligations.ConfigurationLaws := by
  intro r inv configured
  refine ⟨inv.mask configured, inv.toNat_bitMask configured, inv.groupBits_le configured, inv.bitCount_eq_zero configured,
    inv.groupBits_eq_countP configured, inv.excessBits_of_pos configured, fun zero => ?_, inv.excessBits_le configured,
    inv.rangeMax_le_bitMask configured, inv.range configured, inv.bitMask_of_pow2 configured, inv.bitMask_of_any configured,
    fun notAny notPot => ?_, inv.bufferParams configured⟩
  · exact BitVec.eq_of_toNat_eq (inv.excessBits_of_zero configured (congrArg BitVec.toNat zero))
  · exact BitVec.eq_of_toNat_eq (inv.excessBits_of_exact configured notAny notPot)

/-- Settles O45, by the kinds of step. -/
theorem onlyCfgNextAndResetWriteRegisters : Obligations.OnlyCfgNextAndResetWriteRegisters := by
  intro s t inv h written
  rcases step_cases h with ⟨rst, -⟩ | ⟨rst, idle, c, rest, port, accepted⟩ | ⟨-, waits, -, w, rest, -, rfl⟩ |
    ⟨-, ⟨r, -, rfl⟩, -⟩ | ⟨-, phase, -⟩
  · exact .inl rst
  · rcases acceptCommand_writes accepted written with ⟨w, r, decoded⟩ | ⟨decoded, bounds⟩
    · exact .inr (.inl ⟨w, r, rest, rst, idle, c, port, decoded⟩)
    · exact .inr (.inr ⟨.inl ⟨rest, rst, idle, c, port, decoded⟩, bounds⟩)
  · obtain ⟨-, -, draws⟩ := inv.waiting waits
    exact .inr (.inr ⟨.inr waits, takeAnswer_writes (draws.imp_right And.left) written⟩)
  · exact absurd rfl written
  · exact absurd phase (by simp [inv.notExtract, inv.notArbitrate])

end Sys2Proof.Machine
end

section
/-! SUPPORT. What the engine does at the BitSource's port (20_memory R55, R57): at most one request in a step, and only out of
NEXT; an answer taken only by the step that waits for it. -/

namespace Sys2Proof.Machine

/-! ### Requests -/

/-- From `s` to `t` the engine issues no request, or exactly one, of the width its registers call for, and then waits for it
(20_memory R55, R57). -/
def AsksAtMostOnce (s t : State) : Prop :=
  t.requests ≠ s.requests →
    t.requests = s.requests ++ [srcWidth s.regs] ∧ t.srcPending = true ∧ t.phase = .srcwait

theorem srcWidth_eq_ite (r : Regs) :
    srcWidth r = if r.mode = .bypass ∧ r.wsel = .w32 then .w32 else .w64 := by
  cases hm : r.mode <;> cases hw : r.wsel <;> simp [srcWidth, hm, hw]

/-- The width depends on MODE and WSEL only, which no NEXT writes (10_state R20). -/
theorem SameConfig.srcWidth_eq {s t : State} (h : SameConfig s t) : srcWidth t.regs = srcWidth s.regs := by
  rw [h]
  rfl

theorem asksAtMostOnce_of_silent {s t : State} (h : t.requests = s.requests) : AsksAtMostOnce s t := fun asked => absurd h asked

theorem issueRequest_asksAtMostOnce (s : State) : AsksAtMostOnce s (issueRequest s) := fun _ => ⟨rfl, rfl, rfl⟩

/-- A silent change that keeps the configuration may come first. -/
theorem AsksAtMostOnce.after_silent {s t u : State} (h : AsksAtMostOnce t u) (silent : t.requests = s.requests)
    (config : SameConfig s t) : AsksAtMostOnce s u := by
  rwa [AsksAtMostOnce, silent, config.srcWidth_eq] at h

theorem arbitratePhase_requests (s : State) : (arbitratePhase s).requests = s.requests := by
  rcases arbitratePhase_cases s with ⟨-, h⟩ | ⟨-, -, h⟩ | ⟨-, -, h⟩ <;> rw [h] <;> rfl

/-- The phases that wait for nobody end at the first request (42_config_next R170). -/
theorem runPhases_asksAtMostOnce (n : Nat) (s : State) : AsksAtMostOnce s (runPhases n s) := by
  have stays := runPhases_induct (P := fun s t => AsksAtMostOnce s t ∧ (s.phase = .srcwait → t = s))
    (fun s => ⟨asksAtMostOnce_of_silent rfl, fun _ => rfl⟩) ?extract ?arbitrate
  case extract =>
    rintro s t phase ⟨asks, stays⟩
    refine ⟨?_, fun waits => by simp [phase] at waits⟩
    rcases extractPhase_cases s with ⟨-, h⟩ | ⟨-, h⟩
    · exact asks.after_silent (by rw [h]; rfl) (extractPhase_sameConfig s)
    · rw [stays (by rw [h]; rfl), h]
      exact issueRequest_asksAtMostOnce s
  case arbitrate =>
    rintro s t phase ⟨asks, -⟩
    exact ⟨asks.after_silent (arbitratePhase_requests s) (arbitratePhase_sameConfig s), fun waits => by simp [phase] at waits⟩
  exact (stays n s).1

theorem nextByMode_asksAtMostOnce (s : State) : AsksAtMostOnce s (nextByMode s) := by
  rcases nextByMode_cases s with ⟨-, h⟩ | ⟨-, h⟩ | ⟨-, h⟩ | ⟨-, h⟩ <;> rw [h]
  · exact asksAtMostOnce_of_silent rfl
  · exact issueRequest_asksAtMostOnce s
  · exact (runPhases_asksAtMostOnce _ _).after_silent rfl rfl
  · exact asksAtMostOnce_of_silent rfl

/-- After an answer the same NEXT may ask again (42_config_next R163). -/
theorem takeAnswer_asksAtMostOnce (w : Word) (s : State) : AsksAtMostOnce s (takeAnswer w s) := by
  rcases takeAnswer_cases w s with ⟨-, h⟩ | ⟨-, h⟩ <;> rw [h]
  · exact asksAtMostOnce_of_silent rfl
  · exact (runPhases_asksAtMostOnce _ _).after_silent rfl rfl

/-- An accepted command that asks for a word is NEXT (20_memory R57). -/
theorem acceptCommand_asks {c : Command} {s t : State} (h : acceptCommand c s = .next t) (asked : t.requests ≠ s.requests) :
    decode c = .ok .next ∧ AsksAtMostOnce s t := by
  rcases acceptCommand_cases c s with ⟨i, decoded, k⟩ | ⟨e, -, k⟩ <;> rw [k] at h
  · cases executed_of_exec h with
    | configured w r aux cfg unfaulted range => exact absurd rfl asked
    | started next unfaulted configured => exact ⟨next ▸ decoded, nextByMode_asksAtMostOnce (startNext s)⟩
    | answered st d aux zeros => exact absurd rfl asked
  · obtain rfl := Host.Outcome.next.inj h
    exact absurd rfl asked

/-! ### Answers -/

theorem nextByMode_samePins (s : State) : SamePins s (nextByMode s) := by
  rcases nextByMode_cases s with ⟨-, h⟩ | ⟨-, h⟩ | ⟨-, h⟩ | ⟨-, h⟩ <;> rw [h]
  · exact ⟨rfl, rfl, rfl, rfl, rfl, rfl⟩
  · exact ⟨rfl, rfl, rfl, rfl, rfl, rfl⟩
  · exact SamePins.trans (t := { s with phase := .extract }) ⟨rfl, rfl, rfl, rfl, rfl, rfl⟩ (runPhases_samePins _ _)
  · exact ⟨rfl, rfl, rfl, rfl, rfl, rfl⟩

/-- No command takes an answer: one that needs a word waits for it first (20_memory R55). -/
theorem acceptCommand_samePins {c : Command} {s t : State} (h : acceptCommand c s = .next t) : SamePins s t := by
  rcases acceptCommand_cases c s with ⟨i, -, k⟩ | ⟨e, -, k⟩ <;> rw [k] at h
  · cases executed_of_exec h with
    | configured w r aux cfg unfaulted range => exact ⟨rfl, rfl, rfl, rfl, rfl, rfl⟩
    | started next unfaulted configured => exact SamePins.trans (t := startNext s) ⟨rfl, rfl, rfl, rfl, rfl, rfl⟩ (nextByMode_samePins _)
    | answered st d aux zeros => exact ⟨rfl, rfl, rfl, rfl, rfl, rfl⟩
  · obtain rfl := Host.Outcome.next.inj h
    exact ⟨rfl, rfl, rfl, rfl, rfl, rfl⟩

end Sys2Proof.Machine
end

section
/-! SUPPORT. What follows in the BitSource's sequence passes through a step unread (20_memory R55, R60): every operation of the
engine commutes with another list of answers to come. -/

namespace Sys2Proof.Machine

/-! ### The step out of reset, phase by phase -/

section
variable {s : State} (rst : s.rst = false)
include rst

theorem step_idle {c : Command} {rest : List Command} (phase : s.phase = .idle) (port : s.cmds = c :: rest) :
    step s = acceptCommand c { s with cmds := rest } := by
  simp [step, rst, phaseStep, phase, idleStep, port]

theorem step_srcwait {w : Word} {rest : List Word} (phase : s.phase = .srcwait) (pending : s.srcPending = true)
    (answered : s.answers = w :: rest) : step s = .next (takeAnswer w { s with answers := rest }) := by
  simp [step, rst, phaseStep, phase, srcwaitStep, pending, answered]

theorem step_respond {r : Response} (phase : s.phase = .respond r) (ready : s.rspReady = true) :
    step s = .next (deliver r s) := by
  simp [step, rst, phaseStep, phase, respondStep, ready]

theorem step_running (phase : s.phase = .extract ∨ s.phase = .arbitrate) : step s = .next (runPhases phaseFuel s) := by
  rcases phase with h | h <;> simp [step, rst, phaseStep, h]

end

/-! ### NEXT and its answers, case by case -/

section
variable {s : State}

theorem execNext_of_faulted (faulted : s.regs.fault = true) : execNext s = .next (respondError .faulted s) := by
  simp [execNext, faulted]

theorem execNext_of_unconfigured (unfaulted : s.regs.fault = false) (unconfigured : s.regs.cfgValid = false) :
    execNext s = .next (respondError .notConfigured s) := by
  simp [execNext, unfaulted, unconfigured]

theorem execNext_of_configured (unfaulted : s.regs.fault = false) (configured : s.regs.cfgValid = true) :
    execNext s = .next (nextByMode (startNext s)) := by
  simp [execNext, unfaulted, configured]

theorem takeAnswer_of_bypass {w : Word} (mode : s.regs.mode = .bypass) :
    takeAnswer w s = retire .ok (latchedWord (srcWidth s.regs) w) 0 (latchAnswer w s) :=
  ((takeAnswer_cases w s).resolve_right fun h => h.1 mode).2

theorem takeAnswer_of_not_bypass {w : Word} (mode : s.regs.mode ≠ .bypass) :
    takeAnswer w s = runPhases phaseFuel { finishRefill (latchAnswer w s) with phase := .arbitrate } :=
  ((takeAnswer_cases w s).resolve_left fun h => mode h.1).2

end

/-! ### Another list of answers to come -/

/-- `s` with the answers `a` to come. -/
def withAnswers (a : List Word) (s : State) : State := { s with answers := a }

section
variable (a : List Word) (s : State)

@[simp] theorem withAnswers_regs : (withAnswers a s).regs = s.regs := rfl
@[simp] theorem withAnswers_phase : (withAnswers a s).phase = s.phase := rfl

theorem extractPhase_withAnswers : extractPhase (withAnswers a s) = withAnswers a (extractPhase s) := by
  unfold extractPhase
  rw [apply_ite (withAnswers a)]
  rfl

theorem arbitratePhase_withAnswers : arbitratePhase (withAnswers a s) = withAnswers a (arbitratePhase s) := by
  unfold arbitratePhase arbitrateCounted
  rw [apply_ite (withAnswers a), apply_ite (withAnswers a)]
  rfl

theorem runPhases_withAnswers (n : Nat) : runPhases n (withAnswers a s) = withAnswers a (runPhases n s) := by
  induction n generalizing s with
  | zero => rfl
  | succ n ih =>
    cases h : s.phase with
    | extract => rw [runPhases_extract h, runPhases_extract (s := withAnswers a s) h, extractPhase_withAnswers, ih]
    | arbitrate => rw [runPhases_arbitrate h, runPhases_arbitrate (s := withAnswers a s) h, arbitratePhase_withAnswers, ih]
    | idle => rw [runPhases_idle h, runPhases_idle (s := withAnswers a s) h]
    | srcwait => rw [runPhases_srcwait h, runPhases_srcwait (s := withAnswers a s) h]
    | respond r => rw [runPhases_respond h, runPhases_respond (s := withAnswers a s) h]

theorem nextByMode_withAnswers : nextByMode (withAnswers a s) = withAnswers a (nextByMode s) := by
  cases h : s.regs.mode <;> simp only [nextByMode, withAnswers_regs, h]
  case any | pot | popot => exact runPhases_withAnswers a { s with phase := .extract } phaseFuel
  case none | const | bypass => rfl

theorem takeAnswer_withAnswers (w : Word) : takeAnswer w (withAnswers a s) = withAnswers a (takeAnswer w s) := by
  by_cases mode : s.regs.mode = .bypass
  · rw [takeAnswer_of_bypass mode, takeAnswer_of_bypass (s := withAnswers a s) mode]
    rfl
  · rw [takeAnswer_of_not_bypass mode, takeAnswer_of_not_bypass (s := withAnswers a s) mode, ← runPhases_withAnswers]
    rfl

theorem configure_withAnswers (w : Width) (r : Word) :
    configure w r (withAnswers a s) = withAnswers a (configure w r s) := by
  unfold configure
  rw [apply_ite (withAnswers a), apply_ite (withAnswers a)]
  rfl

end

section
variable {s t : State}

theorem exec_withAnswers (a : List Word) {i : Instr} (h : exec i s = .next t) :
    exec i (withAnswers a s) = .next (withAnswers a t) := by
  cases i with
  | nop => exact Host.Outcome.next.inj h ▸ rfl
  | cfgU8 r => exact Host.Outcome.next.inj h ▸ congrArg _ (configure_withAnswers a s .w8 r)
  | cfgU16 r => exact Host.Outcome.next.inj h ▸ congrArg _ (configure_withAnswers a s .w16 r)
  | cfgU32 r => exact Host.Outcome.next.inj h ▸ congrArg _ (configure_withAnswers a s .w32 r)
  | cfgU64 r => exact Host.Outcome.next.inj h ▸ congrArg _ (configure_withAnswers a s .w64 r)
  | lookup x => exact Host.Outcome.next.inj h ▸ rfl
  | ispow2 x => exact Host.Outcome.next.inj h ▸ rfl
  | next =>
    rcases execNext_cases s with ⟨faulted, k⟩ | ⟨unfaulted, unconfigured, k⟩ | ⟨unfaulted, configured, k⟩ <;>
      obtain rfl := Host.Outcome.next.inj (k.symm.trans h)
    · exact execNext_of_faulted (s := withAnswers a s) faulted
    · exact execNext_of_unconfigured (s := withAnswers a s) unfaulted unconfigured
    · rw [← nextByMode_withAnswers]
      exact execNext_of_configured (s := withAnswers a s) unfaulted configured
  | rdreg n =>
    simp only [exec, execRdreg, withAnswers_regs] at h ⊢
    split at h <;> obtain rfl := Host.Outcome.next.inj h <;> rfl

theorem acceptCommand_withAnswers (a : List Word) {c : Command} (h : acceptCommand c s = .next t) :
    acceptCommand c (withAnswers a s) = .next (withAnswers a t) := by
  unfold acceptCommand at h ⊢
  split at h
  · exact exec_withAnswers a h
  · exact Host.Outcome.next.inj h ▸ rfl

end

end Sys2Proof.Machine
end

section
/-! SUPPORT. What the host and the BitSource can do between steps (20_memory R58, 70_reset R290, R303): when another agent
reaches the BitSource, and the invariant under the host's pins. -/

namespace Sys2Proof.Machine

/-- Another agent draws while no request is outstanding, and gets the next word (20_memory R58). -/
theorem otherAgentDraw_eq_some {s t : State} {w : Word} : otherAgentDraw s = some (w, t) ↔
    s.srcPending = false ∧ ∃ rest, s.answers = w :: rest ∧ t = { s with answers := rest } := by
  cases hp : s.srcPending <;> cases ha : s.answers <;> simp [otherAgentDraw, hp, ha, eq_comm]

theorem restoreSource_eq_some {s t : State} {saved : List Word} :
    restoreSource saved s = some t ↔ s.srcPending = false ∧ t = { s with answers := saved } := by
  cases hp : s.srcPending <;> simp [restoreSource, hp, eq_comm]

theorem saveSource_eq_some {s : State} {saved : List Word} :
    saveSource s = some saved ↔ s.srcPending = false ∧ saved = s.answers := by
  cases hp : s.srcPending <;> simp [saveSource, hp, eq_comm]

/-- The cycle in which `rst` rises is a reset cycle (70_reset R290; log 11). -/
theorem hostReset_true_inv (s : State) : (hostReset true s).Inv :=
  inv_of_rest Regs.reset_inv rfl (.inl rfl) (fun _ => ⟨rfl, rfl, rfl⟩) (fun _ => rfl)

section
variable {s : State} (inv : s.Inv)
include inv

theorem State.Inv.hostReady (level : Bool) : (hostReady level s).Inv :=
  ⟨inv.regs, inv.pending, inv.notExtract, inv.notArbitrate, inv.waiting, inv.guarded, inv.inReset, inv.unstarted, inv.errors⟩

/-- Releasing `rst` asks nothing new of the engine (70_reset R291). -/
theorem State.Inv.hostReset_false : (hostReset false s).Inv :=
  ⟨inv.regs, inv.pending, inv.notExtract, inv.notArbitrate, inv.waiting, inv.guarded, fun h => by simp at h, inv.unstarted,
    inv.errors⟩

end

end Sys2Proof.Machine
end

section
/-! The obligations on the BitSource's port and on the engine's neighbours. -/

namespace Sys2Proof.Machine

/-- Settles O44, by the kinds of step; within a NEXT, because the phases that wait for nobody stop at the first request. -/
theorem onlyNextRequestsWords : Obligations.OnlyNextRequestsWords := by
  intro s t inv rst h
  rw [← srcWidth_eq_ite]
  rcases step_cases h with ⟨reset, -⟩ | ⟨-, idle, c, rest, port, accepted⟩ | ⟨-, waits, pending, w, rest, answered, rfl⟩ |
    ⟨-, ⟨r, -, rfl⟩, -⟩ | ⟨-, phase, -⟩
  · simp [rst] at reset
  · refine ⟨fun asked => ?_, fun took => absurd (acceptCommand_samePins accepted).answers took⟩
    obtain ⟨decoded, asks⟩ := acceptCommand_asks accepted asked
    obtain ⟨one, waits, phase⟩ := asks asked
    exact ⟨one, waits, phase, .inl ⟨rest, rst, idle, c, port, decoded⟩⟩
  · refine ⟨fun asked => ?_, fun _ => ⟨waits, pending, w, ?_⟩⟩
    · obtain ⟨one, pending', phase⟩ := takeAnswer_asksAtMostOnce w { s with answers := rest } asked
      exact ⟨one, pending', phase, .inr waits⟩
    · rw [answered, (takeAnswer_samePins w { s with answers := rest }).answers]
  · exact ⟨fun asked => absurd rfl asked, fun took => absurd rfl took⟩
  · exact absurd phase (by simp [inv.notExtract, inv.notArbitrate])

/-- Settles O47, by the kinds of step: only the step that takes an answer reads the list, and only its head. -/
theorem laterAnswersDoNotMatter : Obligations.LaterAnswersDoNotMatter := by
  intro s t more rst h
  change step (withAnswers (s.answers ++ more) s) = .next (withAnswers (t.answers ++ more) t)
  rcases step_cases h with ⟨reset, -⟩ | ⟨-, idle, c, rest, port, accepted⟩ | ⟨-, waits, pending, w, rest, answered, rfl⟩ |
    ⟨-, ⟨r, phase, rfl⟩, ready⟩ | ⟨-, phase, rfl⟩
  · simp [rst] at reset
  · rw [step_idle (s := withAnswers (s.answers ++ more) s) rst idle port, (acceptCommand_samePins accepted).answers]
    exact acceptCommand_withAnswers _ accepted
  · have answered' : (withAnswers (s.answers ++ more) s).answers = w :: (rest ++ more) := congrArg (· ++ more) answered
    rw [step_srcwait (s := withAnswers (s.answers ++ more) s) rst waits pending answered', (takeAnswer_samePins w _).answers]
    exact congrArg _ (takeAnswer_withAnswers _ { s with answers := rest } w)
  · rw [step_respond (s := withAnswers (s.answers ++ more) s) rst phase ready]
    rfl
  · rw [step_running (s := withAnswers (s.answers ++ more) s) rst phase, runPhases_withAnswers, (runPhases_samePins _ s).answers]

/-- Settles O54: commands, answers and `rsp_ready` are no part of the invariant, `rst` is a reset cycle, and the other agents'
actions are possible only with SRC_PENDING at 0. -/
theorem outsideActionsKeepTheInvariant : Obligations.OutsideActionsKeepTheInvariant := by
  intro s inv
  refine ⟨fun c => inv.withInputs (s.cmds ++ [c]) s.answers, fun level => ?_, inv.hostReady,
    fun w => inv.withInputs s.cmds (s.answers ++ [w]), fun w t h => ?_, fun saved t h => ?_, fun saved => saveSource_eq_some.1⟩
  · cases level with
    | true => exact hostReset_true_inv s
    | false => exact inv.hostReset_false
  · obtain ⟨unasked, rest, answered, rfl⟩ := otherAgentDraw_eq_some.1 h
    exact ⟨unasked, inv.withInputs s.cmds rest, rfl, answered⟩
  · obtain ⟨unasked, rfl⟩ := restoreSource_eq_some.1 h
    exact ⟨unasked, inv.withInputs s.cmds saved, rfl, rfl⟩

end Sys2Proof.Machine
end

section
/-! SUPPORT. The decoder in closed form: a byte is its three fields, and a command decodes to `i` exactly when it has the byte
of `i` and, but for NOP and NEXT, its operand (30_encoding R71, R73, R75, R77). -/

namespace Sys2Proof

/-! ### Fields -/

/-- A byte is `RSV`, `WS` and `OP` side by side (30_encoding R71). -/
theorem fields_append (b : Byte) : rsvField b ++ wsField b ++ opField b = b := by
  unfold rsvField wsField opField
  rw [BitVec.extractLsb'_append_extractLsb'_eq_extractLsb' (show 6 = 4 + 2 from rfl),
    BitVec.extractLsb'_append_extractLsb'_eq_extractLsb' (show 4 = 0 + 4 from rfl), BitVec.extractLsb'_eq_self]

theorem widthSelect_cases (ws : BitVec 2) : ws = 0 ∨ ws = 1 ∨ ws = 2 ∨ ws = 3 := by
  revert ws
  decide

/-! ### The decoder's branches -/

section
variable {c : Command}

theorem decode_of_reserved (rsv : rsvField c.op ≠ 0#2) : decode c = .error .reservedBits := if_pos rsv

theorem decode_of_cfg (rsv : rsvField c.op = 0#2) (op : opField c.op = 1#4) :
    decode c = .ok (decodeCfg (wsField c.op) c.data) := by
  simp [decode, rsv, op]

theorem decode_of_widthSelect (rsv : rsvField c.op = 0#2) (op : opField c.op ≠ 1#4) (ws : wsField c.op ≠ 0#2) :
    decode c = .error .widthSelect := by
  simp [decode, rsv, op, ws]

theorem decode_of_plain (rsv : rsvField c.op = 0#2) (op : opField c.op ≠ 1#4) (ws : wsField c.op = 0#2) :
    decode c = decodePlain (opField c.op).toNat c.data := by
  simp [decode, rsv, op, ws]

/-- What a command that decodes is: CFG with a width, or an operation without one (30_encoding R75, R77). -/
theorem decode_eq_ok_iff_fields {i : Instr} : decode c = .ok i ↔ rsvField c.op = 0#2 ∧
    (opField c.op = 1#4 ∧ decodeCfg (wsField c.op) c.data = i ∨
      opField c.op ≠ 1#4 ∧ wsField c.op = 0#2 ∧ decodePlain (opField c.op).toNat c.data = .ok i) := by
  by_cases rsv : rsvField c.op = 0#2
  · by_cases op : opField c.op = 1#4
    · simp [decode_of_cfg rsv op, rsv, op]
    · by_cases ws : wsField c.op = 0#2
      · simp [decode_of_plain rsv op ws, rsv, op, ws]
      · simp [decode_of_widthSelect rsv op ws, op, ws]
  · simp [decode_of_reserved rsv, rsv]

end

/-! ### The byte and the operand of a decoded instruction -/

/-- The operand of `i` is `d`, or ignored (30_encoding R73). -/
def TakesOperand (i : Instr) (d : Word) : Prop := operandWord i = d ∨ i = .nop ∨ i = .next

theorem decodeCfg_fields (ws : BitVec 2) (d : Word) :
    opcodeByte (decodeCfg ws d) = 0#2 ++ ws ++ 1#4 ∧ TakesOperand (decodeCfg ws d) d := by
  rcases widthSelect_cases ws with rfl | rfl | rfl | rfl <;> exact ⟨rfl, .inl rfl⟩

/-- CFG's byte: its pattern with the width select in its field (30_encoding R72, R75). -/
theorem cfgByte_eq_or (ws : BitVec 2) : 0#2 ++ ws ++ 1#4 = 0x01#8 ||| (ws.setWidth 8 <<< 4) := by
  revert ws
  decide

theorem decodePlain_eq_ok {op : Nat} {d : Word} {i : Instr} (h : decodePlain op d = .ok i) :
    opcodeByte i = 0#2 ++ 0#2 ++ BitVec.ofNat 4 op ∧ TakesOperand i d := by
  unfold decodePlain at h
  split at h <;> cases h
  · exact ⟨rfl, .inr (.inl rfl)⟩
  · exact ⟨rfl, .inr (.inr rfl)⟩
  · exact ⟨rfl, .inl rfl⟩
  · exact ⟨rfl, .inl rfl⟩
  · exact ⟨rfl, .inl rfl⟩

theorem decode_of_opcodeByte {c : Command} {i : Instr} (op : opcodeByte i = c.op) (data : TakesOperand i c.data) :
    decode c = .ok i := by
  obtain ⟨b, d⟩ := c
  obtain rfl : opcodeByte i = b := op
  cases i with
  | nop | next => simp [decode, opcodeByte, rsvField, opField, wsField, decodePlain]
  | cfgU8 | cfgU16 | cfgU32 | cfgU64 | lookup | ispow2 | rdreg =>
    obtain rfl : _ = d := by simpa [TakesOperand] using data
    simp [decode, opcodeByte, rsvField, opField, wsField, decodeCfg, decodePlain, operandWord]

/-- The decoder in closed form. -/
theorem decode_eq_ok_iff {c : Command} {i : Instr} : decode c = .ok i ↔ opcodeByte i = c.op ∧ TakesOperand i c.data := by
  refine ⟨fun h => ?_, fun ⟨op, data⟩ => decode_of_opcodeByte op data⟩
  rw [← fields_append c.op]
  rcases decode_eq_ok_iff_fields.1 h with ⟨rsv, ⟨op, rfl⟩ | ⟨-, ws, plain⟩⟩
  · rw [rsv, op]
    exact decodeCfg_fields _ _
  · obtain ⟨byte, data⟩ := decodePlain_eq_ok plain
    rw [BitVec.ofNat_toNat, BitVec.setWidth_eq] at byte
    exact ⟨by rw [byte, rsv, ws], data⟩

@[simp] theorem decode_encode (i : Instr) : decode (encode i) = .ok i := decode_of_opcodeByte rfl (.inl rfl)

/-! ### The opcode table -/

/-- The nine rows of 30_encoding R75: match, mask, instruction. -/
def opcodeRows : List (Byte × Byte × (Word → Instr)) := [
  (0x00#8, 0xFF#8, fun _ => .nop), (0x01#8, 0xFF#8, .cfgU8), (0x11#8, 0xFF#8, .cfgU16),
  (0x21#8, 0xFF#8, .cfgU32), (0x31#8, 0xFF#8, .cfgU64), (0x02#8, 0xFF#8, fun _ => .next),
  (0x03#8, 0xFF#8, .lookup), (0x04#8, 0xFF#8, .ispow2), (0x05#8, 0xFF#8, .rdreg)]

theorem opcodeRows_mask : ∀ row ∈ opcodeRows, row.2.1 = BitVec.allOnes 8 := by decide

/-- Every mask is whole, so a row matches its own byte only. -/
theorem and_mask_of_mem_opcodeRows {row : Byte × Byte × (Word → Instr)} (h : row ∈ opcodeRows) (b : Byte) :
    b &&& row.2.1 = b := by
  rw [opcodeRows_mask row h, BitVec.and_allOnes]

/-- A row stands for the instruction that has its byte and takes its operand. -/
theorem exists_mem_opcodeRows_iff (b : Byte) (d : Word) (i : Instr) :
    (∃ row ∈ opcodeRows, b = row.1 ∧ row.2.2 d = i) ↔ opcodeByte i = b ∧ TakesOperand i d := by
  cases i <;> simp [opcodeRows, opcodeByte, operandWord, TakesOperand, eq_comm (a := b), eq_comm (a := d)]

theorem decode_eq_ok_iff_row (c : Command) (i : Instr) :
    decode c = .ok i ↔ ∃ row ∈ opcodeRows, c.op &&& row.2.1 = row.1 ∧ row.2.2 c.data = i := by
  rw [decode_eq_ok_iff, ← exists_mem_opcodeRows_iff]
  exact exists_congr fun row => and_congr_right fun h => by rw [and_mask_of_mem_opcodeRows h]

/-! ### The legal bytes -/

/-- The nine bytes of 30_encoding R77. -/
def legalBytes : List Byte := [0x00#8, 0x01#8, 0x11#8, 0x21#8, 0x31#8, 0x02#8, 0x03#8, 0x04#8, 0x05#8]

theorem mem_legalBytes_iff {b : Byte} : b ∈ legalBytes ↔ ∃ row ∈ opcodeRows, b = row.1 := by
  rw [show legalBytes = opcodeRows.map Prod.fst from rfl, List.mem_map]
  exact exists_congr fun row => and_congr_right fun _ => eq_comm

/-- The legal bytes differ, so only one row matches each. -/
theorem length_filter_opcodeRows : ∀ b ∈ legalBytes, (opcodeRows.filter fun row => b &&& row.2.1 == row.1).length = 1 := by
  decide

/-- A command decodes exactly when some row has its byte, whatever its operand is (30_encoding R73, R77). -/
theorem exists_decode_iff_mem_legalBytes (c : Command) : (∃ i, decode c = .ok i) ↔ c.op ∈ legalBytes := by
  simp only [decode_eq_ok_iff, ← exists_mem_opcodeRows_iff, mem_legalBytes_iff]
  constructor
  · rintro ⟨_, row, mem, byte, -⟩
    exact ⟨row, mem, byte⟩
  · rintro ⟨row, mem, byte⟩
    exact ⟨_, row, mem, byte, rfl⟩

theorem exists_decodePlain_iff {op : Nat} (d : Word) : (∃ i, decodePlain op d = .ok i) ↔ op < 6 ∧ op ≠ 1 := by
  match op with
  | 0 | 1 | 2 | 3 | 4 | 5 => simp [decodePlain]
  | n + 6 => simp [decodePlain]

/-- A command decodes exactly when none of 30_encoding R77's three conditions holds of its byte. -/
theorem exists_decode_iff_fields (c : Command) : (∃ i, decode c = .ok i) ↔
    rsvField c.op = 0#2 ∧ (opField c.op).toNat < 6 ∧ (opField c.op = 1#4 ∨ wsField c.op = 0#2) := by
  simp only [decode_eq_ok_iff_fields, exists_and_left, exists_or, exists_eq', and_true, exists_decodePlain_iff]
  by_cases op : opField c.op = 1#4
  · simp [op]
  · have notCfg : (opField c.op).toNat ≠ 1 := fun h => op (BitVec.eq_of_toNat_eq h)
    simp [op, notCfg, and_comm]

end Sys2Proof

namespace Sys2Proof.Machine

/-! ### The command on the port -/

theorem acceptCommand_of_decode {c : Command} {i : Instr} {s : State} (h : decode c = .ok i) :
    acceptCommand c s = exec i s := by
  simp [acceptCommand, h]

theorem acceptCommand_of_illegal {c : Command} {s : State} (h : c.op ∉ legalBytes) :
    acceptCommand c s = .next (respondError .illegalCmd s) := by
  rcases acceptCommand_cases c s with ⟨i, decoded, -⟩ | ⟨e, -, k⟩
  · exact absurd ((exists_decode_iff_mem_legalBytes c).1 ⟨i, decoded⟩) h
  · exact k

end Sys2Proof.Machine
end

section
/-! SUPPORT. The assembler's lines (30_encoding R80, R81): a well-formed line assembles to the encodings of its instructions,
any other to nothing. -/

namespace Sys2Proof.Machine

variable {l : AsmLine} {w : Width}

theorem assemble_of_wf (h : l.wf = true) : assemble l = some ((expand l).map encode) := if_pos h

theorem assemble_of_not_wf (h : l.wf = false) : assemble l = none := by simp [assemble, h]

theorem assemble_eq_some {cs : List Command} (h : assemble l = some cs) : cs = (expand l).map encode := by
  cases hl : l.wf with
  | true => exact (Option.some.inj ((assemble_of_wf hl).symm.trans h)).symm
  | false => simp [assemble_of_not_wf hl] at h

theorem immOk_iff {n : Nat} : immOk n = true ↔ n < 2 ^ 64 := decide_eq_true_iff

theorem immOk_eq_false {n : Nat} (h : 2 ^ 64 ≤ n) : immOk n = false := decide_eq_false (Nat.not_lt.2 h)

theorem two_pow_le_of_le_bits {k : Nat} (h : k ≤ w.bits) : 2 ^ k ≤ 2 ^ 64 :=
  Nat.pow_le_pow_right two_pos (h.trans (by cases w <;> decide))

theorem assemble_cfg {imm : Nat} (h : imm < 2 ^ 64) :
    assemble (.cfg w imm) = some [encode (cfgInstr w (BitVec.ofNat 64 imm))] := assemble_of_wf (immOk_iff.2 h)

theorem assemble_cfgPow2 {k : Nat} (h : k ≤ w.bits) : assemble (.cfgPow2 w k) = assemble (.cfg w (2 ^ k - 1)) := by
  have fits := two_pow_le_of_le_bits h
  have pos := Nat.two_pow_pos k
  rw [assemble_cfg (by omega)]
  exact assemble_of_wf (decide_eq_true h)

theorem assemble_cfgSize {n : Nat} (pos : 1 ≤ n) (h : n ≤ 2 ^ w.bits) :
    assemble (.cfgSize w n) = assemble (.cfg w (n - 1)) := by
  have fits := two_pow_le_of_le_bits (le_refl w.bits)
  rw [assemble_cfg (by omega)]
  exact assemble_of_wf (by simp [AsmLine.wf, pos, h])

theorem assemble_cfgSize_eq_none {n : Nat} (h : n = 0 ∨ 2 ^ w.bits < n) : assemble (.cfgSize w n) = none :=
  assemble_of_not_wf (by simp only [AsmLine.wf, Bool.and_eq_false_iff, decide_eq_false_iff_not]; omega)

/-- The commands of a line decode to its instructions. -/
theorem map_decode_assemble {cs : List Command} (h : assemble l = some cs) : cs.map decode = (expand l).map .ok := by
  simp [assemble_eq_some h, Function.comp_def]

end Sys2Proof.Machine
end

section
/-! SUPPORT. One response per command: a command in progress stays in progress until its response is taken, so the commands
waiting, the one in progress and the responses taken add up (20_memory R62, 30_encoding R74). -/

namespace Sys2Proof.Machine

/-! ### A command in progress goes on -/

theorem extractPhase_not_idle (s : State) : (extractPhase s).phase ≠ .idle := by
  rcases extractPhase_cases s with ⟨-, h⟩ | ⟨-, h⟩ <;> simp [h]

theorem arbitratePhase_not_idle (s : State) : (arbitratePhase s).phase ≠ .idle := by
  rcases arbitratePhase_cases s with ⟨-, h⟩ | ⟨-, -, h⟩ | ⟨-, -, h⟩ <;> simp [h]

theorem runPhases_not_idle {s : State} (n : Nat) (h : s.phase ≠ .idle) : (runPhases n s).phase ≠ .idle :=
  runPhases_induct (P := fun s t => s.phase ≠ .idle → t.phase ≠ .idle) (fun _ => id)
    (fun s _ _ k _ => k (extractPhase_not_idle s)) (fun s _ _ k _ => k (arbitratePhase_not_idle s)) n s h

theorem nextByMode_not_idle (s : State) : (nextByMode s).phase ≠ .idle := by
  rcases nextByMode_cases s with ⟨-, h⟩ | ⟨-, h⟩ | ⟨-, h⟩ | ⟨-, h⟩ <;> rw [h]
  · simp
  · simp
  · exact runPhases_not_idle _ (by simp)
  · simp

theorem takeAnswer_not_idle (w : Word) (s : State) : (takeAnswer w s).phase ≠ .idle := by
  rcases takeAnswer_cases w s with ⟨-, h⟩ | ⟨-, h⟩ <;> rw [h]
  · simp
  · exact runPhases_not_idle _ (by simp)

/-- An accepted command is in progress, or answered and its response waits (30_encoding R74). -/
theorem acceptCommand_not_idle {c : Command} {s t : State} (h : acceptCommand c s = .next t) : t.phase ≠ .idle := by
  rcases acceptCommand_cases c s with ⟨i, -, k⟩ | ⟨e, -, k⟩ <;> rw [k] at h
  · cases executed_of_exec h with
    | configured => simp
    | started => exact nextByMode_not_idle _
    | answered => simp
  · obtain rfl := Host.Outcome.next.inj h
    simp

/-! ### The count -/

/-- The commands waiting, the one in progress and the responses taken. -/
def accounted (s : State) : Nat := s.cmds.length + busy s + s.taken.length

theorem busy_of_idle {s : State} (h : s.phase = .idle) : busy s = 0 := if_pos h

theorem busy_of_not_idle {s : State} (h : s.phase ≠ .idle) : busy s = 1 := if_neg h

/-- While a command is in progress nothing is accepted and no response is taken. -/
theorem SamePins.accounted_eq {s t : State} (pins : SamePins s t) (hs : s.phase ≠ .idle) (ht : t.phase ≠ .idle) :
    accounted t = accounted s := by
  simp [accounted, pins.cmds, pins.taken, busy_of_not_idle hs, busy_of_not_idle ht]

/-- A step out of reset keeps the count, and the pin. -/
theorem step_accounted {s t : State} (rst : s.rst = false) (h : step s = .next t) :
    t.rst = false ∧ accounted t = accounted s := by
  rcases step_cases h with ⟨reset, -⟩ | ⟨-, idle, c, rest, port, accepted⟩ | ⟨-, waits, -, w, rest, -, rfl⟩ |
    ⟨-, ⟨r, phase, rfl⟩, -⟩ | ⟨-, phase, rfl⟩
  · simp [rst] at reset
  · have pins := acceptCommand_samePins accepted
    refine ⟨pins.rst.trans rst, ?_⟩
    simp only [accounted, pins.cmds, pins.taken, port, busy_of_idle idle, busy_of_not_idle (acceptCommand_not_idle accepted),
      List.length_cons]
  · have pins := takeAnswer_samePins w { s with answers := rest }
    exact ⟨pins.rst.trans rst, pins.accounted_eq (by simp [waits]) (takeAnswer_not_idle w _)⟩
  · refine ⟨rst, ?_⟩
    simp only [accounted, deliver_cmds, deliver_taken, List.length_append, List.length_singleton,
      busy_of_idle (deliver_phase r s), busy_of_not_idle (s := s) (by simp [phase])]
    omega
  · have pins := runPhases_samePins phaseFuel s
    have running : s.phase ≠ .idle := by rcases phase with h | h <;> simp [h]
    exact ⟨pins.rst.trans rst, pins.accounted_eq running (runPhases_not_idle _ running)⟩

theorem Reaches.accounted_eq {n : Nat} {s t : State} (rst : s.rst = false) (run : Reaches n s t) :
    accounted s = accounted t := by
  induction n generalizing s with
  | zero => exact congrArg accounted run
  | succ n ih =>
    obtain ⟨u, first, later⟩ := run
    obtain ⟨rst', kept⟩ := step_accounted rst first
    exact kept.symm.trans (ih rst' later)

/-! ### A response held -/

theorem rspOnPort_of_respond {s : State} {r : Response} (rst : s.rst = false) (phase : s.phase = .respond r) :
    rspOnPort s = some r := by
  simp [rspOnPort, rst, phase]

theorem step_respond_held {s : State} {r : Response} (rst : s.rst = false) (phase : s.phase = .respond r)
    (unready : s.rspReady = false) : step s = .fault .awaitResponseTaken := by
  simp [step, rst, phaseStep, phase, respondStep, unready]

end Sys2Proof.Machine
end

section
/-! The obligations on the encoding, the assembler, and the commands' acceptance and responses. -/

namespace Sys2Proof.Machine

/-- Settles O1, by the decoder's closed form. -/
theorem decodeEncodeAgree : Obligations.DecodeEncodeAgree :=
  ⟨decode_encode, fun _ _ h => decode_eq_ok_iff.1 h⟩

/-- Settles O43, by induction on the run; each step keeps the count because a command in progress stays so until its response
is taken. -/
theorem oneResponsePerCommand : Obligations.OneResponsePerCommand := fun _ _ _ rst run => run.accounted_eq rst

/-- Settles O2: by the decoder's closed form a row matches its instruction's byte only. -/
theorem decodeSelectsTheMatchingRow : Obligations.DecodeSelectsTheMatchingRow := by
  refine ⟨decode_eq_ok_iff_row, fun c legal => ?_, fun ws d => ?_⟩
  · exact length_filter_opcodeRows c.op ((exists_decode_iff_mem_legalBytes c).1 legal)
  · obtain ⟨byte, data⟩ := decodeCfg_fields ws d
    exact decode_of_opcodeByte (byte.trans (cfgByte_eq_or ws)) data

/-- Settles O5: the legal bytes are those that decode, and these are the ones R77's conditions leave. -/
theorem illegalBytesAreAnswered : Obligations.IllegalBytesAreAnswered := by
  refine ⟨exists_decode_iff_mem_legalBytes, fun op => ?_, fun s c rest rst idle port illegal => ?_⟩
  · change op ∉ legalBytes ↔ rsvField op ≠ 0#2 ∨ 6 ≤ (opField op).toNat ∨ opField op ≠ 1#4 ∧ wsField op ≠ 0#2
    have legal := (exists_decode_iff_mem_legalBytes ⟨op, 0⟩).symm.trans (exists_decode_iff_fields ⟨op, 0⟩)
    rw [legal, not_and_or, not_and_or, not_lt, not_or]
  · rw [step_idle rst idle port, acceptCommand_of_illegal illegal]
    rfl

/-- Settles O6: a line assembles to the encodings of its instructions where it is well-formed, and these decode; the texts are
run. -/
theorem assembledLinesDecode : Obligations.AssembledLinesDecode := by
  refine ⟨⟨rfl, rfl⟩, fun imm h => ?_, fun imm h w => ?_, ⟨rfl, rfl, rfl, rfl, rfl⟩, fun w k => ?_, fun w n => ?_,
    ⟨rfl, rfl, rfl⟩, fun w r h => ?_, fun l cs => map_decode_assemble, by decide +kernel, by decide +kernel, by decide +kernel,
    by decide +kernel⟩
  · have ok := immOk_iff.2 h
    exact ⟨assemble_cfg h, assemble_cfg h, assemble_cfg h, assemble_cfg h, assemble_of_wf ok, assemble_of_wf ok,
      assemble_of_wf ok⟩
  · have refused := immOk_eq_false h
    exact ⟨assemble_of_not_wf refused, assemble_of_not_wf refused, assemble_of_not_wf refused, assemble_of_not_wf refused,
      assemble_of_not_wf refused⟩
  · exact ⟨assemble_cfgPow2, fun h => assemble_of_not_wf (decide_eq_false (Nat.not_le.2 h))⟩
  · exact ⟨assemble_cfgSize, assemble_cfgSize_eq_none⟩
  · exact ⟨_, assemble_cfg h, assemble_of_wf (immOk_iff.2 h)⟩

/-- Settles O3: each word is an instruction's byte and operand, or meets one of R77's conditions. -/
theorem writtenWordsDecode : Obligations.WrittenWordsDecode :=
  ⟨decode_encode .nop, decode_encode (.cfgU16 0x594#64), decode_encode (.cfgU64 0xFFFFFFFFFFFFFFFF#64), decode_encode .next,
    decode_encode (.lookup 0x5DC#64), decode_encode (.ispow2 0x595#64), decode_encode (.rdreg 0x100000001#64),
    decode_of_widthSelect (by decide) (by decide) (by decide), decode_of_reserved (by decide),
    decode_of_plain (by decide) (by decide) (by decide)⟩

/-- Settles O4, by the decoder's closed form. -/
theorem operandsAreTakenWhole : Obligations.OperandsAreTakenWhole := fun d =>
  ⟨decode_of_opcodeByte rfl (.inr (.inl rfl)), decode_of_opcodeByte rfl (.inr (.inr rfl)), decode_encode (.cfgU8 d),
    decode_encode (.cfgU16 d), decode_encode (.cfgU32 d), decode_encode (.cfgU64 d), decode_encode (.lookup d),
    decode_encode (.ispow2 d), decode_encode (.rdreg d)⟩

/-- Settles O39: in IDLE a step accepts the command on the port. -/
theorem stepRunsTheDecodedInstruction : Obligations.StepRunsTheDecodedInstruction := fun _ _ _ _ rst idle port decoded =>
  (step_idle rst idle port).trans (acceptCommand_of_decode decoded)

/-- Settles O41: in RESPOND a step hands the response over or waits. -/
theorem responseIsHeldUntilTaken : Obligations.ResponseIsHeldUntilTaken := fun _ _ rst phase =>
  ⟨rspOnPort_of_respond rst phase, step_respond rst phase, step_respond_held rst phase⟩

end Sys2Proof.Machine
end

section
/-! SUPPORT. The masks `2 ^ k - 1`: they are the values of the mask generator, the de Bruijn tables are read at masks only, and
the power-of-two test asks for a mask (40_lookup R103, R105 to R109, R112). -/

namespace Sys2Proof.Machine

/-! ### The count as a bound -/

theorem bitCountOf_le_iff {x : Word} {k : Nat} : bitCountOf x ≤ k ↔ x.toNat < 2 ^ k := by
  rw [bitCountOf_eq_size, Nat.size_le]

/-- The highest one bit of a word that is not 0 (40_lookup R102). -/
theorem bitCountOf_eq_log2_add_one {x : Word} (h : x ≠ 0) : bitCountOf x = Nat.log2 x.toNat + 1 := by
  have pos := mt (bitCountOf_eq_zero x).1 h
  have top : x.toNat < 2 ^ (bitCountOf x - 1 + 1) := bitCountOf_le_iff.1 (by omega)
  have log := (Nat.log2_eq_iff (BitVec.toNat_ne_iff_ne.2 h)).2 ⟨two_pow_bitCountOf_pred_le h, top⟩
  omega

/-- A power of two has one bit more than its exponent (40_lookup R104). -/
theorem bitCountOf_two_pow {k : Nat} (h : k < 64) : bitCountOf (BitVec.ofNat 64 (2 ^ k)) = k + 1 := by
  rw [bitCountOf_eq_size, BitVec.toNat_ofNat, Nat.mod_eq_of_lt (Nat.pow_lt_pow_right (by decide) h), Nat.size_pow]

/-! ### Masks -/

/-- The word of `k` ones. -/
def maskOf (k : Nat) : Word := BitVec.ofNat 64 (2 ^ k - 1)

theorem toNat_maskOf {k : Nat} (h : k ≤ 64) : (maskOf k).toNat = 2 ^ k - 1 := by
  have := Nat.pow_le_pow_right two_pos h
  exact Nat.mod_eq_of_lt (by omega)

theorem bitCountOf_maskOf {k : Nat} (h : k ≤ 64) : bitCountOf (maskOf k) = k := bitCountOf_of_toNat (toNat_maskOf h)

theorem smear_eq_maskOf (x : Word) : smear x = maskOf (bitCountOf x) :=
  BitVec.eq_of_toNat_eq ((toNat_smear x).trans (toNat_maskOf (bitCountOf_le x)).symm)

theorem bitCountOf_smear (x : Word) : bitCountOf (smear x) = bitCountOf x := bitCountOf_of_toNat (toNat_smear x)

theorem smear_smear (x : Word) : smear (smear x) = smear x := by
  rw [smear_eq_maskOf (smear x), bitCountOf_smear, ← smear_eq_maskOf]

/-- The generator leaves exactly the masks unchanged (40_lookup R112 (b)). -/
theorem smear_eq_self_iff {x : Word} : smear x = x ↔ x.toNat = 2 ^ bitCountOf x - 1 := by
  rw [← toNat_smear, eq_comm, BitVec.toNat_eq]

theorem smear_eq_self_iff_exists {x : Word} : smear x = x ↔ ∃ k, k ≤ 64 ∧ x.toNat = 2 ^ k - 1 := by
  constructor
  · exact fun h => ⟨bitCountOf x, bitCountOf_le x, smear_eq_self_iff.1 h⟩
  · rintro ⟨k, -, h⟩
    rw [smear_eq_self_iff, bitCountOf_of_toNat h, h]

/-- No mask at or above a word is below its smear (40_lookup R103). -/
theorem smear_least {x : Word} {k : Nat} (h : x.toNat ≤ 2 ^ k - 1) :
    (smear x).toNat ≤ 2 ^ k - 1 ∧ bitCountOf x ≤ k := by
  have count : bitCountOf x ≤ k := bitCountOf_le_iff.2 (by have := Nat.two_pow_pos k; omega)
  exact ⟨toNat_smear x ▸ Nat.sub_le_sub_right (Nat.pow_le_pow_right two_pos count) 1, count⟩

/-! ### The power-of-two test -/

theorem isPow2_iff_smear {s : Word} : isPow2 s = true ↔ smear (s - 1) = s - 1 := beq_iff_eq

/-- The test holds one above a mask: at the powers of two, and at 0 above the mask of 64 ones (40_lookup R108). -/
theorem isPow2_iff {s : Word} : isPow2 s = true ↔ s = 0 ∨ ∃ k, k < 64 ∧ s.toNat = 2 ^ k := by
  rw [isPow2_iff_smear, smear_eq_self_iff_exists]
  have hs := s.isLt
  by_cases zero : s = 0
  · subst zero
    exact iff_of_true ⟨64, le_rfl, rfl⟩ (.inl rfl)
  · have pos : 1 ≤ s.toNat := Nat.pos_of_ne_zero (BitVec.toNat_ne_iff_ne.2 zero)
    have pred : (s - 1).toNat = s.toNat - 1 := BitVec.toNat_sub_of_le pos
    rw [pred, or_iff_right zero]
    refine exists_congr fun k => ?_
    have hk := Nat.two_pow_pos k
    constructor
    · rintro ⟨-, h⟩
      have power : s.toNat = 2 ^ k := by omega
      exact ⟨(Nat.pow_lt_pow_iff_right (by decide)).1 (power ▸ hs), power⟩
    · rintro ⟨lt, h⟩
      exact ⟨lt.le, by rw [h]⟩

theorem exec_ispow2 (x : Word) (s : State) :
    exec (.ispow2 x) s = .next (respond .ok ((BitVec.ofBool (isPow2 x)).setWidth 64) 0 s) := rfl

/-! ### The de Bruijn datapath -/

/-- Each entry the datapath can read is the count of its mask (40_lookup R106). -/
theorem tab64_maskOf : ∀ k ≤ 64, k ≠ 0 → tab64.getD ((maskOf k * c64) >>> 58).toNat 0 = k := by decide

theorem tab64_deBruijnIndex64 {x : Word} (h : x ≠ 0) : tab64.getD (deBruijnIndex64 x) 0 = bitCountOf x := by
  rw [deBruijnIndex64, smear_eq_maskOf]
  exact tab64_maskOf _ (bitCountOf_le x) (mt (bitCountOf_eq_zero x).1 h)

theorem deBruijnCount64_eq (x : Word) : deBruijnCount64 x = bitCountOf x := by
  unfold deBruijnCount64
  split
  case isTrue zero => exact ((bitCountOf_eq_zero x).2 zero).symm
  case isFalse nonzero => exact tab64_deBruijnIndex64 nonzero

theorem tab64_deBruijnIndex64_maskOf {k : Nat} (pos : 1 ≤ k) (h : k ≤ 64) :
    tab64.getD (deBruijnIndex64 (maskOf k)) 0 = k := by
  have nonzero : maskOf k ≠ 0 := mt (bitCountOf_eq_zero _).2 (by rw [bitCountOf_maskOf h]; omega)
  rw [tab64_deBruijnIndex64 nonzero, bitCountOf_maskOf h]

/-! ### The 32-bit variant -/

theorem toNat_setWidth_word (x : BitVec 32) : (x.setWidth 64).toNat = x.toNat := BitVec.toNat_setWidth_of_le (by decide)

/-- The sixth stage of the 64-bit generator adds nothing to a word of 32 bits. -/
theorem setWidth_smear32 (x : BitVec 32) : (smear32 x).setWidth 64 = smear (x.setWidth 64) := by
  have sixth : smear (x.setWidth 64) = (smear32 x).setWidth 64 ||| (smear32 x).setWidth 64 >>> 32 := by
    simp only [smear, smear32, BitVec.setWidth_or, BitVec.setWidth_ushiftRight (show 32 ≤ 64 by decide)]
  have high : (smear32 x).setWidth 64 >>> 32 = 0#64 := by
    rw [← BitVec.setWidth_ushiftRight (by decide), BitVec.ushiftRight_eq_zero le_rfl, BitVec.setWidth_zero]
  rw [sixth, high, BitVec.or_zero]

theorem smear32_eq_maskOf (x : BitVec 32) : smear32 x = (maskOf (bitCountOf (x.setWidth 64))).setWidth 32 := by
  rw [← smear_eq_maskOf, ← setWidth_smear32, BitVec.setWidth_setWidth_of_le _ (by decide), BitVec.setWidth_eq]

/-- Each entry the 32-bit datapath can read is the count of its mask (40_lookup R109). -/
theorem tab32_maskOf : ∀ k ≤ 32, k ≠ 0 → tab32.getD (((maskOf k).setWidth 32 * c32) >>> 27).toNat 0 = k := by decide

theorem deBruijnCount32_eq (x : BitVec 32) : deBruijnCount32 x = bitCountOf (x.setWidth 64) := by
  have zero_iff : bitCountOf (x.setWidth 64) = 0 ↔ x = 0 := by
    rw [bitCountOf_eq_zero, BitVec.toNat_eq, BitVec.toNat_eq, toNat_setWidth_word]
    rfl
  have few : bitCountOf (x.setWidth 64) ≤ 32 := bitCountOf_le_iff.2 (toNat_setWidth_word x ▸ x.isLt)
  unfold deBruijnCount32
  split
  case isTrue zero => exact (zero_iff.2 zero).symm
  case isFalse nonzero =>
    rw [smear32_eq_maskOf]
    exact tab32_maskOf _ few (mt zero_iff.1 nonzero)

end Sys2Proof.Machine
end

section
/-! The obligations on the lookup unit. -/

namespace Sys2Proof.Machine

/-- Settles O7: six stages, each doubling the window of bits a bit of the result ORs, make it 64 wide. -/
theorem smearFillsBelowHighestBit : Obligations.SmearFillsBelowHighestBit := by
  intro x i _
  rw [smear_orsWindow x i]
  refine exists_congr fun j => and_congr_right fun _ => and_congr_left fun one => ?_
  have := BitVec.lt_of_getLsbD one
  omega

/-- Settles O8, by the closed forms of the mask and the count. -/
theorem bitCountIsHighestBitPlusOne : Obligations.BitCountIsHighestBitPlusOne := by
  refine ⟨fun x => popCountBelow_eq_countP 64 (smear x), fun x => ⟨bitCountOf_eq_zero x, bitCountOf_le x, toNat_smear x⟩,
    fun x => bitCountOf_eq_log2_add_one, fun k pos le => ⟨?_, bitCountOf_maskOf le⟩⟩
  rw [bitCountOf_two_pow (by omega), Nat.sub_add_cancel pos]

/-- Settles O9: a mask at or above the word has at least its bit count of ones. -/
theorem smearIsLeastMask : Obligations.SmearIsLeastMask := fun x =>
  ⟨toNat_smear x, toNat_le_smear x, fun _ => smear_least, fun pos =>
    ⟨two_pow_bitCountOf_pred_le (BitVec.toNat_ne_iff_ne.1 (Nat.ne_of_gt pos)), toNat_smear x ▸ toNat_le_smear x⟩⟩

/-- Settles O10: the index depends on the mask only, and the table gives each mask its count; so masks with one
index are equal. -/
theorem deBruijnDatapathCountsBits : Obligations.DeBruijnDatapathCountsBits := by
  refine ⟨deBruijnCount64_eq, fun k l k_pos k_le l_pos l_le same => ?_⟩
  calc k = tab64.getD (deBruijnIndex64 (maskOf k)) 0 := (tab64_deBruijnIndex64_maskOf k_pos k_le).symm
    _ = tab64.getD (deBruijnIndex64 (maskOf l)) 0 := congrArg (tab64.getD · 0) same
    _ = l := tab64_deBruijnIndex64_maskOf l_pos l_le

/-- Settles O11: the sixth stage is idle on 32 bits, and the 32-bit table gives each mask its count. -/
theorem narrowLookupAgrees : Obligations.NarrowLookupAgrees := fun x => ⟨setWidth_smear32 x, deBruijnCount32_eq x⟩

/-- Settles O12: the values of the generator are the masks, which it leaves unchanged. -/
theorem smearLaws : Obligations.SmearLaws := by
  refine ⟨fun r => ?_, fun r => smear_eq_self_iff, fun r pos _ => ?_, fun x => ⟨smear_smear x, bitCountOf_smear x⟩⟩
  · rw [isPow2_iff_smear, add_sub_cancel_right]
  · have below := smear_lt_two_mul (BitVec.toNat_ne_iff_ne.1 (Nat.ne_of_gt pos))
    exact ⟨below, by omega⟩

/-- Settles O14, by the characterisation of the power-of-two test. -/
theorem ispow2AnswersExactly : Obligations.Ispow2AnswersExactly := by
  refine fun s x => ⟨decode_encode (.ispow2 x), fun power => ?_, fun other => ?_⟩
  · rw [exec_ispow2, isPow2_iff.2 power]
    rfl
  · rw [exec_ispow2, Bool.eq_false_iff.2 (mt isPow2_iff.1 other)]
    rfl

/-- Settles O13: LOOKUP's meaning is this one response. -/
theorem lookupAnswersMaskAndCount : Obligations.LookupAnswersMaskAndCount := fun _ x => ⟨decode_encode (.lookup x), rfl⟩

end Sys2Proof.Machine
end

section
/-! SUPPORT. NEXT in a buffered mode, up to its first candidate: from the buffer, from a refill, or not yet there (41_buffer R131 to
R133, 42_config_next R163). -/

namespace Sys2Proof.Machine

theorem Mode.buffered_iff {m : Mode} : m.buffered = true ↔ m = .any ∨ m = .pot ∨ m = .popot := by
  cases m <;> simp [Mode.buffered]

theorem Mode.buffered_of_pow2 {m : Mode} (pow2 : m = .pot ∨ m = .popot) : m.buffered = true :=
  Mode.buffered_iff.2 (.inr pow2)

theorem Mode.ne_bypass_of_buffered {m : Mode} (buffered : m.buffered = true) : m ≠ .bypass := by
  rintro rfl
  cases buffered

theorem hasGroup_iff {r : Regs} : hasGroup r = true ↔ 1 < r.residual.toNat := decide_eq_true_iff

/-- Only BYPASS asks for 32 bits (20_memory R57). -/
theorem srcWidth_of_buffered {r : Regs} (buffered : r.mode.buffered = true) : srcWidth r = .w64 := by
  rw [srcWidth_eq_ite, if_neg fun h => Mode.ne_bypass_of_buffered buffered h.1]

section
variable {s : State}

/-- POT and POPOT compare nothing (42_config_next R166, R167). -/
theorem accepts_of_pow2 (mode : s.regs.mode = .pot ∨ s.regs.mode = .popot) (cand : Word) : accepts s.regs cand = true := by
  rcases mode with h | h <;> simp [accepts, h]

/-- ARBITRATE on an accepted candidate ends the run of phases (42_config_next R163). -/
theorem runPhases_of_accepted {n : Nat} (phase : s.phase = .arbitrate) (accepted : accepts s.regs s.cand = true) :
    runPhases (n + 1) s = retire .ok s.cand (iterAux (s.iter + 1)) { s with iter := s.iter + 1 } := by
  rw [runPhases_arbitrate phase]
  rcases arbitratePhase_cases s with ⟨-, h⟩ | ⟨rejected, -⟩ | ⟨rejected, -⟩
  · rw [h, runPhases_respond rfl]
  · simp [accepted] at rejected
  · simp [accepted] at rejected

/-- With no group buffered NEXT asks for a word (41_buffer R131). -/
theorem nextBuffered_of_empty (empty : hasGroup s.regs = false) : nextBuffered s = issueRequest s := by
  rw [nextBuffered_eq, phaseFuel, runPhases_extract rfl]
  rcases extractPhase_cases { s with phase := .extract } with ⟨group, -⟩ | ⟨-, h⟩
  · exact absurd group (by simp [empty])
  · rw [h, runPhases_srcwait rfl]
    rfl

/-- With a group buffered NEXT answers the low one, if it is accepted (41_buffer R132). -/
theorem nextBuffered_of_group (group : hasGroup s.regs = true)
    (accepted : accepts s.regs (s.regs.residual &&& s.regs.bitMask) = true) :
    nextBuffered s = retire .ok (s.regs.residual &&& s.regs.bitMask) (iterAux (s.iter + 1))
      { extractBuffered s with phase := .arbitrate, iter := s.iter + 1 } := by
  rw [nextBuffered_eq, phaseFuel, runPhases_extract rfl]
  rcases extractPhase_cases { s with phase := .extract } with ⟨-, h⟩ | ⟨empty, -⟩
  · rw [h, runPhases_of_accepted rfl accepted]
    rfl
  · exact absurd group (by simp [empty])

/-- An answer in a buffered mode gives its refill's candidate, if it is accepted (41_buffer R133). -/
theorem takeAnswer_of_accepted {w : Word} (buffered : s.regs.mode.buffered = true)
    (accepted : accepts s.regs (refillCandidate s.regs w) = true) :
    takeAnswer w s = retire .ok (refillCandidate s.regs w) (iterAux (s.iter + 1))
      { finishRefill { latchAnswer w s with wordLatch := w } with phase := .arbitrate, iter := s.iter + 1 } := by
  have latched : latchAnswer w s = { latchAnswer w s with wordLatch := w } := by
    rw [latchAnswer, srcWidth_of_buffered buffered]
    rfl
  rw [takeAnswer_of_not_bypass (Mode.ne_bypass_of_buffered buffered), phaseFuel, latched, runPhases_of_accepted rfl accepted]
  rfl

/-- NEXT of a configured, unfaulted engine in a buffered mode (42_config_next R160, R163). -/
theorem exec_next_of_buffered (unfaulted : s.regs.fault = false) (configured : s.regs.cfgValid = true)
    (buffered : s.regs.mode.buffered = true) : exec .next s = .next (nextBuffered (startNext s)) := by
  refine (execNext_of_configured unfaulted configured).trans (congrArg _ ?_)
  rcases Mode.buffered_iff.1 buffered with h | h | h <;> simp [nextByMode, h]

end

end Sys2Proof.Machine
end

section
/-! SUPPORT. The groups of one refilled word (41_buffer R133 to R136): what the i-th extraction takes and what it leaves. -/

namespace Sys2Proof.Machine

/-! ### Groups under the sentinel -/

theorem holdsGroups_iff_div {b j : Nat} {v : Word} : HoldsGroups b j v ↔ v.toNat / 2 ^ (j * b) = 1 := by
  have pos := Nat.two_pow_pos (j * b)
  rw [HoldsGroups, Nat.pow_succ, Nat.div_eq_iff pos]
  generalize 2 ^ (j * b) = p at pos ⊢
  omega

/-- Extracting `i` of `j` groups leaves `j - i` (41_buffer R132). -/
theorem HoldsGroups.shift {b i j : Nat} {v : Word} (h : HoldsGroups b j v) (le : i ≤ j) :
    HoldsGroups b (j - i) (v >>> (i * b)) := by
  rw [holdsGroups_iff_div] at h ⊢
  rwa [BitVec.toNat_ushiftRight, Nat.shiftRight_eq_div_pow, Nat.div_div_eq_div_mul, ← Nat.pow_add, ← Nat.add_mul,
    Nat.add_sub_cancel' le]

/-- The comparison `RESIDUAL > 1` tells whether a group is left (41_buffer R131, R135). -/
theorem HoldsGroups.one_lt_iff {b j : Nat} {v : Word} (pos : 1 ≤ b) (h : HoldsGroups b j v) : 1 < v.toNat ↔ 0 < j := by
  cases j with
  | zero => simpa using BuffersGroups.le_one (.inr h)
  | succ j => simpa using BuffersGroups.one_lt pos (.inr h)

/-! ### One word -/

/-- The engine after the word `w` has been refilled and `i` more groups extracted. -/
def extracted (s : State) (w : Word) (i : Nat) : State := extractBuffered^[i] (finishRefill { s with wordLatch := w })

theorem extracted_succ (s : State) (w : Word) (i : Nat) : extracted s w (i + 1) = extractBuffered (extracted s w i) :=
  Function.iterate_succ_apply' ..

theorem extracted_regs (s : State) (w : Word) (i : Nat) :
    (extracted s w i).regs = { s.regs with residual := refillResidual s.regs w >>> (i * groupBits s.regs) } := by
  induction i with
  | zero => simp [extracted]
  | succ i ih =>
    rw [extracted_succ, extractBuffered_regs, ih, Nat.succ_mul, BitVec.shiftRight_add]
    rfl

theorem nthCandidate_eq_cand (s : State) (w : Word) (i : Nat) : nthCandidate s w i = (extracted s w i).cand := rfl

theorem nthCandidate_zero (s : State) (w : Word) : nthCandidate s w 0 = refillCandidate s.regs w := rfl

theorem nthCandidate_succ (s : State) (w : Word) (i : Nat) :
    nthCandidate s w (i + 1) = (extracted s w i).regs.residual &&& s.regs.bitMask := by
  rw [nthCandidate_eq_cand, extracted_succ, extractBuffered_cand, extracted_regs]

section
variable {s : State} (params : BufferParams s.regs)
include params

theorem BufferParams.groupBits_pos : 1 ≤ groupBits s.regs := params.1

/-- A word has at least one group. -/
theorem BufferParams.groups_pos : 0 < 64 / groupBits s.regs := by
  obtain ⟨pos, le, -⟩ := params
  exact Nat.div_pos le pos

/-- A word is its excess bits and its groups (41_buffer R133, 10_state R24). -/
theorem BufferParams.excess_add_groups : excessBits s.regs + 64 / groupBits s.regs * groupBits s.regs = 64 := by
  obtain ⟨-, -, excess, -⟩ := params
  rw [excessBits, groupBits, excess, Nat.mod_add_div']

/-- The sentinel stands above the groups a refill leaves (41_buffer R134, R135). -/
theorem BufferParams.sentinel_place :
    64 - groupBits s.regs - excessBits s.regs = (64 / groupBits s.regs - 1) * groupBits s.regs := by
  have := params.excess_add_groups
  rw [Nat.sub_one_mul]
  omega

theorem BufferParams.toNat_and_bitMask (x : Word) : (x &&& s.regs.bitMask).toNat = x.toNat % 2 ^ groupBits s.regs := by
  obtain ⟨-, -, -, mask⟩ := params
  rw [BitVec.toNat_and, mask, Nat.and_two_pow_sub_one_eq_mod, groupBits]

theorem BufferParams.toNat_bitMask_lt : s.regs.bitMask.toNat < 2 ^ groupBits s.regs := by
  obtain ⟨-, -, -, mask⟩ := params
  rw [mask]
  exact Nat.sub_one_lt (Nat.two_pow_pos _).ne'

theorem BufferParams.holdsGroups_extracted (w : Word) {i : Nat} (lt : i < 64 / groupBits s.regs) :
    HoldsGroups (groupBits s.regs) (64 / groupBits s.regs - 1 - i) (extracted s w i).regs.residual := by
  obtain ⟨pos, le, excess, -⟩ := params
  rw [extracted_regs]
  exact (refillResidual_holdsGroups pos le excess w).shift (by omega)

/-- A group is left until the last one is taken (41_buffer R135). -/
theorem BufferParams.hasGroup_extracted (w : Word) {i : Nat} (lt : i < 64 / groupBits s.regs) :
    hasGroup (extracted s w i).regs = true ↔ i + 1 < 64 / groupBits s.regs := by
  rw [hasGroup_iff, (params.holdsGroups_extracted w lt).one_lt_iff params.groupBits_pos]
  omega

/-- The sentinel is above the `i`-th buffered group, so that group is the word's own (41_buffer R134). -/
theorem BufferParams.groupAt_refillResidual (w : Word) {i : Nat} (lt : i + 1 < 64 / groupBits s.regs) :
    groupAt (groupBits s.regs) i (refillResidual s.regs w) =
      w.toNat / 2 ^ (excessBits s.regs + (i + 1) * groupBits s.regs) % 2 ^ groupBits s.regs := by
  have place := params.sentinel_place
  have inside : (i + 1) * groupBits s.regs ≤ (64 / groupBits s.regs - 1) * groupBits s.regs := Nat.mul_le_mul_right _ (by omega)
  rw [Nat.succ_mul] at inside ⊢
  apply Nat.eq_of_testBit_eq
  intro k
  rw [groupAt, Nat.testBit_mod_two_pow, Nat.testBit_mod_two_pow, Nat.testBit_div_two_pow, Nat.testBit_div_two_pow,
    BitVec.testBit_toNat, BitVec.testBit_toNat, refillResidual, BitVec.getLsbD_or, BitVec.getLsbD_shiftLeft]
  by_cases low : k < groupBits s.regs
  · have below : k + i * groupBits s.regs < 64 - groupBits s.regs - excessBits s.regs := by omega
    have same : excessBits s.regs + (groupBits s.regs + (k + i * groupBits s.regs)) =
        k + (excessBits s.regs + (i * groupBits s.regs + groupBits s.regs)) := by omega
    simp [below, same]
  · simp [low]

/-- The `i`-th candidate is bits `[e + (i+1)·b - 1 : e + i·b]` of the word (41_buffer R136). -/
theorem BufferParams.toNat_nthCandidate (w : Word) {i : Nat} (lt : i < 64 / groupBits s.regs) :
    (nthCandidate s w i).toNat = w.toNat / 2 ^ (excessBits s.regs + i * groupBits s.regs) % 2 ^ groupBits s.regs := by
  cases i with
  | zero => rw [nthCandidate_zero, refillCandidate, params.toNat_and_bitMask, BitVec.toNat_ushiftRight,
      Nat.shiftRight_eq_div_pow, Nat.zero_mul, Nat.add_zero]
  | succ i => rw [nthCandidate_succ, extracted_regs, params.toNat_and_bitMask, BitVec.toNat_ushiftRight,
      Nat.shiftRight_eq_div_pow, ← params.groupAt_refillResidual w lt, groupAt]

end

end Sys2Proof.Machine
end

section
/-! SUPPORT. How many words have given groups: a word is its low bits and a number, and a number is its groups (42_config_next
R164, R172; log 21). -/

namespace Sys2Proof.Machine

/-- The low `e` bits of a word whose others are `v`. -/
def lowBits (e v : Nat) (w : { w : Word // w.toNat / 2 ^ e = v }) : Fin (2 ^ e) :=
  ⟨w.1.toNat % 2 ^ e, Nat.mod_lt _ (Nat.two_pow_pos e)⟩

theorem val_lowBits {e v : Nat} (w : { w : Word // w.toNat / 2 ^ e = v }) : (lowBits e v w).val = w.1.toNat % 2 ^ e := rfl

theorem lowBits_bijective {e v : Nat} (le : e ≤ 64) (small : v < 2 ^ (64 - e)) : Function.Bijective (lowBits e v) := by
  constructor
  · rintro ⟨w, hw⟩ ⟨w', hw'⟩ same
    have lows : w.toNat % 2 ^ e = w'.toNat % 2 ^ e := Fin.val_eq_of_eq same
    refine Subtype.ext (BitVec.eq_of_toNat_eq ?_)
    calc w.toNat = w.toNat / 2 ^ e * 2 ^ e + w.toNat % 2 ^ e := (Nat.div_add_mod' _ _).symm
      _ = w'.toNat / 2 ^ e * 2 ^ e + w'.toNat % 2 ^ e := by rw [hw, hw', lows]
      _ = w'.toNat := Nat.div_add_mod' _ _
  · intro low
    have fits : v * 2 ^ e + low < 2 ^ 64 :=
      calc v * 2 ^ e + low < (v + 1) * 2 ^ e := by rw [Nat.succ_mul]; omega
        _ ≤ 2 ^ (64 - e) * 2 ^ e := Nat.mul_le_mul_right _ small
        _ = 2 ^ 64 := by rw [← Nat.pow_add, Nat.sub_add_cancel le]
    have toNat : (BitVec.ofNat 64 (v * 2 ^ e + low)).toNat = 2 ^ e * v + low := by
      rw [BitVec.toNat_ofNat, Nat.mod_eq_of_lt fits, Nat.mul_comm]
    refine ⟨⟨BitVec.ofNat 64 (v * 2 ^ e + low), ?_⟩, Fin.ext ?_⟩
    · rw [toNat, Nat.mul_add_div (Nat.two_pow_pos e), Nat.div_eq_of_lt low.isLt, Nat.add_zero]
    · rw [val_lowBits, toNat, Nat.mul_add_mod, Nat.mod_eq_of_lt low.isLt]

/-- Of the words, `2 ^ e` have the quotient `v` by `2 ^ e`. -/
theorem card_words_of_quotient {e v : Nat} (le : e ≤ 64) (small : v < 2 ^ (64 - e)) :
    Nat.card { w : Word // w.toNat / 2 ^ e = v } = 2 ^ e := by
  rw [Nat.card_eq_of_bijective _ (lowBits_bijective le small), Nat.card_fin]

/-- A number is told by its digits to base `m`. -/
theorem forall_digit_eq_iff {m G : Nat} (x : Fin (m ^ G)) (g : Fin G → Fin m) :
    (∀ i : Fin G, x.val / m ^ i.val % m = (g i).val) ↔ x = finFunctionFinEquiv g := by
  rw [← Equiv.symm_apply_eq, funext_iff]
  exact forall_congr' fun i => by rw [Fin.ext_iff, finFunctionFinEquiv_symm_apply_val]

/-- Every choice of `G` groups is met by one number of `G` groups. -/
theorem exists_forall_group_iff {b G : Nat} {g : Nat → Nat} (small : ∀ i < G, g i < 2 ^ b) :
    ∃ v < 2 ^ (G * b), ∀ x < 2 ^ (G * b), (∀ i < G, x / 2 ^ (i * b) % 2 ^ b = g i) ↔ x = v := by
  have pow (i : Nat) : 2 ^ (i * b) = (2 ^ b) ^ i := by rw [Nat.mul_comm, Nat.pow_mul]
  simp only [pow]
  refine ⟨finFunctionFinEquiv fun i : Fin G => (⟨g i, small i i.isLt⟩ : Fin (2 ^ b)), Fin.isLt _, fun x hx => ?_⟩
  have told := forall_digit_eq_iff ⟨x, hx⟩ fun i : Fin G => (⟨g i, small i i.isLt⟩ : Fin (2 ^ b))
  rwa [Fin.forall_iff, Fin.ext_iff] at told

end Sys2Proof.Machine
end

section
/-! The obligations on the residual buffer. -/

namespace Sys2Proof.Machine

/-- Settles O24: with RESIDUAL at most 1 the first phase is the request. -/
theorem nextRequestsAWordWhenEmpty : Obligations.NextRequestsAWordWhenEmpty := by
  intro s unfaulted configured buffered small
  have empty : hasGroup s.regs = false := decide_eq_false (Nat.not_lt.2 small)
  rw [exec_next_of_buffered unfaulted configured buffered, nextBuffered_of_empty (s := startNext s) empty, issueRequest,
    startNext_regs, srcWidth_of_buffered buffered]
  rfl

/-- Settles O23: POT and POPOT accept the group the first phase takes. -/
theorem nextTakesTheBufferedGroup : Obligations.NextTakesTheBufferedGroup := by
  intro s unfaulted configured mode group
  refine ⟨_, exec_next_of_buffered unfaulted configured (Mode.buffered_of_pow2 mode), ?_⟩
  rw [nextBuffered_of_group (s := startNext s) (hasGroup_iff.2 group) (accepts_of_pow2 mode _)]
  exact ⟨rfl, rfl, rfl, rfl, rfl, rfl, rfl, rfl, rfl, rfl, rfl⟩

/-- Settles O25: the refill's candidate is the first to be judged. -/
theorem refillAnswersItsCandidate : Obligations.RefillAnswersItsCandidate := by
  intro s w rest rst waits pending buffered answered b e cand inRange
  have accepted : accepts s.regs cand = true := by
    by_cases mode : s.regs.mode = .any
    · simpa [accepts, mode] using inRange mode
    · simp [accepts, mode]
  refine ⟨_, step_srcwait rst waits pending answered, ?_⟩
  rw [takeAnswer_of_accepted (s := { s with answers := rest }) buffered accepted]
  exact ⟨rfl, rfl, rfl, rfl, rfl, rfl, rfl, rfl, rfl, rfl, rfl⟩

/-- Settles O30: the sentinel stands above all of the word's groups, and each extraction shifts one out. -/
theorem refilledWordIsTakenInGroups : Obligations.RefilledWordIsTakenInGroups := by
  intro s w i params b e lt
  exact ⟨params.toNat_nthCandidate w lt, params.holdsGroups_extracted w lt, params.hasGroup_extracted w lt,
    params.sentinel_place⟩

/-- Settles O31: the words with these candidates are those with one quotient by `2 ^ e`. -/
theorem candidatesAreUnbiased : Obligations.CandidatesAreUnbiased := by
  intro s g params inMask
  have whole := params.excess_add_groups
  have small : ∀ i < 64 / groupBits s.regs, (g i).toNat < 2 ^ groupBits s.regs := fun i lt =>
    (inMask i lt).trans_lt params.toNat_bitMask_lt
  obtain ⟨v, v_lt, told⟩ := exists_forall_group_iff small
  have meets (w : Word) :
      (∀ i < 64 / groupBits s.regs, nthCandidate s w i = g i) ↔ w.toNat / 2 ^ excessBits s.regs = v := by
    rw [← told]
    · refine forall₂_congr fun i lt => ?_
      rw [BitVec.toNat_eq, params.toNat_nthCandidate w lt, Nat.div_div_eq_div_mul, Nat.pow_add]
    · rw [Nat.div_lt_iff_lt_mul (Nat.two_pow_pos _), ← Nat.pow_add, Nat.add_comm, whole]
      exact w.isLt
  calc Nat.card { w : Word // ∀ i < 64 / groupBits s.regs, nthCandidate s w i = g i }
      = Nat.card { w : Word // w.toNat / 2 ^ excessBits s.regs = v } := Nat.card_congr (Equiv.subtypeEquivRight meets)
    _ = 2 ^ excessBits s.regs := card_words_of_quotient (by omega) (by rwa [← whole, Nat.add_sub_cancel_left])

end Sys2Proof.Machine
end

section
/-! SUPPORT. A stream of NEXTs in POT or POPOT: one NEXT on the port from acceptance to the taken response, and where the stream
stands after `m` of them (42_config_next R166, R167, R169; 41_buffer R136). -/

namespace Sys2Proof.Machine

/-! ### One NEXT on the port -/

theorem decode_nextCommand : decode nextCommand = .ok .next := decode_encode .next

theorem step_nextCommand {s : State} {rest : List Command} (rst : s.rst = false) (idle : s.phase = .idle)
    (port : s.cmds = nextCommand :: rest) : step s = exec .next { s with cmds := rest } := by
  rw [step_idle rst idle port, acceptCommand_of_decode decode_nextCommand]

/-- The engine waits in IDLE, out of reset, for a host that takes responses. -/
structure State.Resting (s : State) : Prop where
  rst : s.rst = false
  ready : s.rspReady = true
  idle : s.phase = .idle

/-- From `s` to `t` a host with `rest` behind its command has been answered `r`. -/
structure Served (r : Response) (rest : List Command) (s t : State) : Prop where
  resting : t.Resting
  cmds : t.cmds = rest
  taken : t.taken = s.taken ++ [r]

/-- A response given to a host that takes it ends its command. -/
theorem Served.of_deliver {r : Response} {rest : List Command} {s t : State} (resting : s.Resting)
    (host : SameHost { s with cmds := rest } t) (responds : t.phase = .respond r) :
    step t = .next (deliver r t) ∧ Served r rest s (deliver r t) := by
  obtain ⟨-, rst, ready, cmds, taken⟩ := host
  have rst := rst.trans resting.rst
  have ready := ready.trans resting.ready
  exact ⟨step_respond rst responds ready, ⟨rst, ready, rfl⟩, cmds, congrArg (· ++ [r]) taken⟩

/-- The registers under which NEXT takes groups and rejects none (42_config_next R166, R167). -/
structure Regs.TakesGroups (r : Regs) : Prop where
  unfaulted : r.fault = false
  configured : r.cfgValid = true
  mode : r.mode = .pot ∨ r.mode = .popot

section
variable {s : State} {rest : List Command} (resting : s.Resting) (port : s.cmds = nextCommand :: rest)
  (takes : s.regs.TakesGroups)
include resting port takes

/-- With a group buffered NEXT is answered with it (41_buffer R132). -/
theorem served_of_group (group : hasGroup s.regs = true) :
    ∃ k t, Reaches k s t ∧ Served ⟨.ok, s.regs.residual &&& s.regs.bitMask, 1⟩ rest s t ∧
      t.regs = { s.regs with residual := s.regs.residual >>> groupBits s.regs } ∧
      t.answers = s.answers ∧ t.requests = s.requests := by
  obtain ⟨t, accepted, responds, regs, -, -, answers, requests, host⟩ :=
    nextTakesTheBufferedGroup { s with cmds := rest } takes.unfaulted takes.configured takes.mode (hasGroup_iff.1 group)
  obtain ⟨delivered, served⟩ := Served.of_deliver resting host responds
  have first := (step_nextCommand resting.rst resting.idle port).trans accepted
  exact ⟨2, _, ⟨t, first, _, delivered, rfl⟩, served, regs, answers, requests⟩

/-- With none, a word is asked for, and its first group is the answer (41_buffer R133). -/
theorem served_of_empty (empty : hasGroup s.regs = false) {w : Word} {later : List Word} (answered : s.answers = w :: later) :
    ∃ k t, Reaches k s t ∧ Served ⟨.ok, nthCandidate s w 0, 1⟩ rest s t ∧ t.regs = (extracted s w 0).regs ∧
      t.answers = later ∧ t.requests = s.requests ++ [.w64] := by
  obtain ⟨unfaulted, configured, mode⟩ := takes
  have buffered := Mode.buffered_of_pow2 mode
  have notAny : s.regs.mode ≠ .any := by rcases mode with h | h <;> simp [h]
  have small : s.regs.residual.toNat ≤ 1 := Nat.not_lt.1 (of_decide_eq_false empty)
  have accepted := nextRequestsAWordWhenEmpty { s with cmds := rest } unfaulted configured buffered small
  obtain ⟨t, refilled, responds, regs, -, -, answers, requests, host⟩ := refillAnswersItsCandidate
    { s with cmds := rest, iter := 0, srcPending := true, phase := .srcwait, requests := s.requests ++ [.w64] } w later
    resting.rst rfl rfl buffered answered fun any => absurd any notAny
  obtain ⟨delivered, served⟩ := Served.of_deliver resting host responds
  have first := (step_nextCommand resting.rst resting.idle port).trans accepted
  exact ⟨3, _, ⟨_, first, t, refilled, _, delivered, rfl⟩, served, regs, answers, requests⟩

end

theorem Reaches.trans {k l : Nat} {s t u : State} (first : Reaches k s t) (later : Reaches l t u) : Reaches (l + k) s u := by
  induction k generalizing s with
  | zero => exact (show s = t from first) ▸ later
  | succ k ih =>
    obtain ⟨v, step, run⟩ := first
    exact ⟨v, step, ih run⟩

/-! ### The stream -/

/-- How many words `m` groups take, `G` from each. -/
def wordsFor (G m : Nat) : Nat := (m + G - 1) / G

section
variable {G m : Nat} (pos : 0 < G)
include pos

theorem wordsFor_succ : wordsFor G (m + 1) = m / G + 1 := by
  rw [wordsFor, show m + 1 + G - 1 = m + G by omega, Nat.add_div_right m pos]

theorem wordsFor_of_mod_eq_zero (whole : m % G = 0) : wordsFor G m = m / G := by
  obtain ⟨q, rfl⟩ := Nat.dvd_of_mod_eq_zero whole
  rw [wordsFor, Nat.add_sub_assoc pos, Nat.mul_add_div pos, Nat.div_eq_of_lt (by omega), Nat.mul_div_cancel_left _ pos,
    Nat.add_zero]

theorem wordsFor_of_mod_ne_zero (part : m % G ≠ 0) : wordsFor G m = m / G + 1 := by
  obtain ⟨l, rfl⟩ : ∃ l, m = l + 1 := Nat.exists_eq_succ_of_ne_zero (by rintro rfl; simp at part)
  rw [wordsFor_succ pos, Nat.succ_div_of_not_dvd (mt Nat.mod_eq_zero_of_dvd part)]

end

/-- The groups of a word. -/
def groupsOf (s : State) : Nat := 64 / groupBits s.regs

/-- The word the `i`-th group of a stream from `s` belongs to. -/
def wordOf (s : State) (i : Nat) : Word := s.answers.getD (i / groupsOf s) 0

/-- The `i`-th response of a stream from `s`. -/
def streamResponse (s : State) (i : Nat) : Response :=
  ⟨.ok, nthCandidate s (wordOf s i) (i % groupsOf s), 1⟩

/-- Where a stream of `n` NEXTs from `s` stands after `m` of them: the buffer is empty after a word's last group, and holds what
the extractions so far leave otherwise. -/
structure Streamed (s : State) (n m : Nat) (t : State) : Prop where
  resting : t.Resting
  cmds : t.cmds = List.replicate (n - m) nextCommand
  config : t.regs = { s.regs with residual := t.regs.residual }
  empty : m % groupsOf s = 0 → hasGroup t.regs = false
  filled : m % groupsOf s ≠ 0 → t.regs = (extracted s (wordOf s m) (m % groupsOf s - 1)).regs
  taken : t.taken = s.taken ++ (List.range m).map (streamResponse s)
  requests : t.requests = s.requests ++ List.replicate (wordsFor (groupsOf s) m) .w64
  answers : t.answers = s.answers.drop (wordsFor (groupsOf s) m)

section
variable {s t u : State} {n m : Nat}

theorem Streamed.takesGroups (at_m : Streamed s n m t) (takes : s.regs.TakesGroups) : t.regs.TakesGroups := by
  rw [at_m.config]
  exact ⟨takes.unfaulted, takes.configured, takes.mode⟩

theorem Streamed.port (at_m : Streamed s n m t) (lt : m < n) :
    t.cmds = nextCommand :: List.replicate (n - (m + 1)) nextCommand := by
  rw [at_m.cmds, ← List.replicate_succ, show n - m = n - (m + 1) + 1 by omega]

section
variable (params : BufferParams s.regs)
include params

theorem BufferParams.wordsFor_zero : wordsFor (groupsOf s) 0 = 0 :=
  (wordsFor_of_mod_eq_zero params.groups_pos (Nat.zero_mod _)).trans (Nat.zero_div _)

/-- A NEXT answered with group `m % G` of its word takes the stream one further. -/
theorem Streamed.succ (at_m : Streamed s n m t)
    (served : Served (streamResponse s m) (List.replicate (n - (m + 1)) nextCommand) t u)
    (regs : u.regs = (extracted s (wordOf s m) (m % groupsOf s)).regs)
    (requests : u.requests = s.requests ++ List.replicate (m / groupsOf s + 1) .w64)
    (answers : u.answers = s.answers.drop (m / groupsOf s + 1)) : Streamed s n (m + 1) u := by
  have pos : 0 < groupsOf s := params.groups_pos
  have lt : m % groupsOf s < groupsOf s := Nat.mod_lt m pos
  have next_mod : (m + 1) % groupsOf s = (m % groupsOf s + 1) % groupsOf s := (Nat.mod_add_mod m _ 1).symm
  refine ⟨served.resting, served.cmds, by rw [regs, extracted_regs], fun whole => ?_, fun part => ?_, ?_, ?_, ?_⟩
  · have last : ¬ m % groupsOf s + 1 < groupsOf s := fun more => by
      rw [next_mod, Nat.mod_eq_of_lt more] at whole
      omega
    rw [regs, ← Bool.not_eq_true, params.hasGroup_extracted _ lt]
    exact last
  · have more : m % groupsOf s + 1 < groupsOf s := by
      refine Nat.lt_of_le_of_ne lt fun last => part ?_
      rw [next_mod, last, Nat.mod_self]
    rw [regs, wordOf, wordOf, Nat.succ_div_of_not_dvd (mt Nat.mod_eq_zero_of_dvd part), next_mod, Nat.mod_eq_of_lt more,
      Nat.add_sub_cancel]
  · rw [served.taken, at_m.taken, List.range_succ, List.map_append, List.append_assoc]
    rfl
  · rw [requests, wordsFor_succ pos]
  · rw [answers, wordsFor_succ pos]

section
variable (takes : s.regs.TakesGroups) (at_m : Streamed s n m t) (lt : m < n)
include takes at_m lt

/-- At a word's end NEXT draws the next word. -/
theorem Streamed.next_of_whole (enough : wordsFor (groupsOf s) n ≤ s.answers.length) (whole : m % groupsOf s = 0) :
    ∃ k u, Reaches k t u ∧ Streamed s n (m + 1) u := by
  have pos : 0 < groupsOf s := params.groups_pos
  have words : wordsFor (groupsOf s) m = m / groupsOf s := wordsFor_of_mod_eq_zero pos whole
  have left : m / groupsOf s < s.answers.length := by
    have : wordsFor (groupsOf s) (m + 1) ≤ wordsFor (groupsOf s) n := Nat.div_le_div_right (by omega)
    rw [wordsFor_succ pos] at this
    omega
  have answered : t.answers = wordOf s m :: s.answers.drop (m / groupsOf s + 1) := by
    rw [at_m.answers, words, List.drop_eq_getElem_cons left, wordOf, List.getD_eq_getElem _ _ left]
  obtain ⟨k, u, run, served, regs, answers, requests⟩ :=
    served_of_empty at_m.resting (at_m.port lt) (at_m.takesGroups takes) (at_m.empty whole) answered
  refine ⟨k, u, run, at_m.succ params ?_ ?_ ?_ answers⟩
  · rw [streamResponse, whole]
    rwa [nthCandidate_zero, at_m.config] at served
  · rw [regs, whole, extracted_regs, extracted_regs, at_m.config]
    rfl
  · rw [requests, at_m.requests, words, List.append_assoc, List.replicate_succ']

/-- Within a word NEXT takes its next group from the buffer. -/
theorem Streamed.next_of_part (part : m % groupsOf s ≠ 0) : ∃ k u, Reaches k t u ∧ Streamed s n (m + 1) u := by
  have pos : 0 < groupsOf s := params.groups_pos
  obtain ⟨i, hi⟩ : ∃ i, m % groupsOf s = i + 1 := Nat.exists_eq_add_one_of_ne_zero part
  have more : i + 1 < groupsOf s := hi ▸ Nat.mod_lt m pos
  have words : wordsFor (groupsOf s) m = m / groupsOf s + 1 := wordsFor_of_mod_ne_zero pos part
  have filled : t.regs = (extracted s (wordOf s m) i).regs := by rw [at_m.filled part, hi, Nat.add_sub_cancel]
  have group : hasGroup t.regs = true := filled ▸ (params.hasGroup_extracted _ (Nat.lt_of_succ_lt more)).2 more
  obtain ⟨k, u, run, served, regs, answers, requests⟩ :=
    served_of_group at_m.resting (at_m.port lt) (at_m.takesGroups takes) group
  refine ⟨k, u, run, at_m.succ params ?_ ?_ ?_ ?_⟩
  · rw [streamResponse, hi, nthCandidate_succ, ← filled]
    rwa [at_m.config] at served
  · rw [regs, hi, extracted_succ, extractBuffered_regs, ← filled]
  · rw [requests, at_m.requests, words]
  · rw [answers, at_m.answers, words]

end

/-- A stream with words enough reaches each of its points. -/
theorem Streamed.exists_reaches (takes : s.regs.TakesGroups) (enough : wordsFor (groupsOf s) n ≤ s.answers.length)
    (start : Streamed s n 0 s) (le : m ≤ n) : ∃ k t, Reaches k s t ∧ Streamed s n m t := by
  induction m with
  | zero => exact ⟨0, s, rfl, start⟩
  | succ m ih =>
    obtain ⟨k, t, run, at_m⟩ := ih (Nat.le_of_succ_le le)
    have one_more : ∃ l u, Reaches l t u ∧ Streamed s n (m + 1) u := by
      by_cases whole : m % groupsOf s = 0
      · exact at_m.next_of_whole params takes le enough whole
      · exact at_m.next_of_part params takes le whole
    obtain ⟨l, u, more, at_succ⟩ := one_more
    exact ⟨l + k, u, run.trans more, at_succ⟩

end

end

end Sys2Proof.Machine
end

section
/-! The obligation on the stream. -/

namespace Sys2Proof.Machine

/-- Settles O34, by induction on the NEXTs answered: each finds a group of the word in use, or refills with the next word. -/
theorem potStreamReturnsGroupsInOrder : Obligations.PotStreamReturnsGroupsInOrder := by
  intro s n inv rst ready idle unfaulted mode unfilled G words port enough
  have configured : s.regs.cfgValid = true := by
    by_contra h
    rw [inv.regs.unconfigured (by simpa using h)] at mode
    simp [Regs.reset] at mode
  have params := inv.regs.bufferParams configured (Mode.buffered_of_pow2 mode)
  have start : Streamed s n 0 s := by
    refine ⟨⟨rst, ready, idle⟩, port, rfl, fun _ => ?_, fun part => absurd (Nat.zero_mod _) part, ?_, ?_, ?_⟩
    · simp [hasGroup, unfilled]
    · simp
    · simp [params.wordsFor_zero]
    · simp [params.wordsFor_zero]
  obtain ⟨k, t, run, done⟩ := start.exists_reaches params ⟨unfaulted, configured, mode⟩ enough le_rfl
  exact ⟨k, t, run, done.resting.idle, by simp [done.cmds], done.taken, done.requests, done.answers⟩

end Sys2Proof.Machine
end

section
/-! SUPPORT. A run of candidates in mode ANY: ARBITRATE judges one after the other, from the buffer, until one is accepted, the
guard fires or the buffer is used up (42_config_next R163 to R165; 41_buffer R136). -/

namespace Sys2Proof.Machine

/-! ### Extractions in a row -/

/-- `i` extractions change CAND, and shift RESIDUAL by `i` groups (41_buffer R132). -/
theorem iterate_extractBuffered (s : State) (i : Nat) :
    extractBuffered^[i] s = { s with
      cand := (extractBuffered^[i] s).cand
      regs := { s.regs with residual := s.regs.residual >>> (i * groupBits s.regs) } } := by
  induction i with
  | zero => simp
  | succ i ih =>
    rw [Function.iterate_succ_apply', ih, Nat.succ_mul, BitVec.shiftRight_add]
    rfl

theorem cand_iterate_extractBuffered_succ (s : State) (i : Nat) :
    (extractBuffered^[i + 1] s).cand = s.regs.residual >>> (i * groupBits s.regs) &&& s.regs.bitMask := by
  rw [Function.iterate_succ_apply', extractBuffered_cand, iterate_extractBuffered]

/-- `s` after `i` of its candidates have been rejected and the next one taken. -/
def judged (s : State) (i : Nat) : State :=
  { s with
    cand := (extractBuffered^[i] s).cand
    regs := { s.regs with residual := s.regs.residual >>> (i * groupBits s.regs) }
    iter := s.iter + i }

theorem judged_zero (s : State) : judged s 0 = s := by
  simp [judged]

theorem judged_succ (s : State) (i : Nat) :
    judged s (i + 1) = { extractBuffered (judged s i) with iter := s.iter + (i + 1) } := by
  rw [judged, cand_iterate_extractBuffered_succ, Nat.succ_mul, BitVec.shiftRight_add]
  rfl

/-! ### The judge's answers -/

theorem accepts_of_any {r : Regs} (mode : r.mode = .any) (cand : Word) :
    accepts r cand = decide (cand.toNat ≤ r.rangeMax.toNat) := by
  simp [accepts, mode]

theorem guardFires_iff {p : Params} {n : Nat} : guardFires p n = true ↔ p.debugGuard = true ∧ p.guardLimit ≤ n := by
  simp [guardFires]

theorem guardFires_eq_false_iff {p : Params} {n : Nat} :
    guardFires p n = false ↔ p.debugGuard = false ∨ n < p.guardLimit := by
  simp only [guardFires, Bool.and_eq_false_iff, decide_eq_false_iff_not, Nat.not_le]

/-- EXTRACT takes the next group, if one is buffered (41_buffer R131). -/
theorem runPhases_extract_of_group {s : State} {n : Nat} (phase : s.phase = .extract) (group : hasGroup s.regs = true) :
    runPhases (n + 1) s = runPhases n { extractBuffered s with phase := .arbitrate } := by
  rw [runPhases_extract phase, extractPhase, if_pos group]

/-- Otherwise it asks for a word (41_buffer R131). -/
theorem runPhases_extract_of_empty {s : State} {n : Nat} (phase : s.phase = .extract) (empty : hasGroup s.regs = false) :
    runPhases (n + 1) s = issueRequest s := by
  rw [runPhases_extract phase, extractPhase, if_neg (by simp [empty]), runPhases_srcwait rfl]

section
variable {s : State} {n : Nat} (phase : s.phase = .arbitrate) (rejected : accepts s.regs s.cand = false)
include phase rejected

/-- A rejected candidate at which the guard fires raises CORRUPT_STATE (42_config_next R165). -/
theorem runPhases_of_guardFires (fires : guardFires s.params (s.iter + 1) = true) :
    runPhases (n + 1) s = raiseCorrupt { s with iter := s.iter + 1 } := by
  rw [runPhases_arbitrate phase, arbitratePhase, arbitrateCounted, if_neg (by simp [rejected]), if_pos fires,
    runPhases_respond rfl]

section
variable (silent : guardFires s.params (s.iter + 1) = false)
include silent

/-- After a rejected candidate NEXT is back in EXTRACT (42_config_next R170). -/
theorem runPhases_of_rejected :
    runPhases (n + 1) s = runPhases n { s with iter := s.iter + 1, phase := .extract } := by
  rw [runPhases_arbitrate phase, arbitratePhase, arbitrateCounted, if_neg (by simp [rejected]), if_neg (by simp [silent])]

theorem runPhases_of_rejected_of_group (group : hasGroup s.regs = true) :
    runPhases (n + 2) s = runPhases n { extractBuffered s with iter := s.iter + 1, phase := .arbitrate } := by
  rw [runPhases_of_rejected phase rejected silent]
  exact runPhases_extract_of_group rfl group

theorem runPhases_of_rejected_of_empty (empty : hasGroup s.regs = false) :
    runPhases (n + 2) s = issueRequest { s with iter := s.iter + 1, phase := .extract } := by
  rw [runPhases_of_rejected phase rejected silent]
  exact runPhases_extract_of_empty rfl empty

end

end

/-! ### The groups that are left -/

/-- A word has room for fewer than 64 groups under a sentinel (41_buffer R135). -/
theorem HoldsGroups.lt {b j : Nat} {v : Word} (pos : 1 ≤ b) (h : HoldsGroups b j v) : j < 64 := by
  have fits : j * b < 64 := (Nat.pow_lt_pow_iff_right (by decide)).1 (h.1.trans_lt v.isLt)
  exact (Nat.le_mul_of_pos_right j pos).trans_lt fits

/-- With no group left the sentinel stands alone (41_buffer R135). -/
theorem HoldsGroups.eq_one {b : Nat} {v : Word} (h : HoldsGroups b 0 v) : v = 1 := by
  rw [holdsGroups_iff_div, Nat.zero_mul, Nat.pow_zero, Nat.div_one] at h
  exact BitVec.eq_of_toNat_eq h

/-! ### The run -/

/-- In mode ANY, `s` is about to judge a candidate, with `j` groups buffered after it: the `i`-th of these `j + 1` candidates is
`c i`. -/
structure State.Offers (s : State) (j : Nat) (c : Nat → Nat) : Prop where
  phase : s.phase = .arbitrate
  mode : s.regs.mode = .any
  pos : 1 ≤ groupBits s.regs
  groups : HoldsGroups (groupBits s.regs) j s.regs.residual
  cand : ∀ i ≤ j, (extractBuffered^[i] s).cand.toNat = c i

section
variable {s : State} {i j n : Nat} {c : Nat → Nat} (offers : s.Offers j c)
include offers

theorem State.Offers.accepts_judged (le : i ≤ j) :
    accepts (judged s i).regs (judged s i).cand = decide (c i ≤ s.regs.rangeMax.toNat) := by
  rw [accepts_of_any (r := (judged s i).regs) offers.mode, ← offers.cand i le]
  rfl

theorem State.Offers.holdsGroups_judged (le : i ≤ j) :
    HoldsGroups (groupBits s.regs) (j - i) (judged s i).regs.residual := offers.groups.shift le

theorem State.Offers.hasGroup_judged (le : i ≤ j) : hasGroup (judged s i).regs = true ↔ i < j := by
  rw [hasGroup_iff, (offers.holdsGroups_judged le).one_lt_iff offers.pos]
  omega

/-- A rejected candidate, with a group after it and the guard silent, takes two phases (42_config_next R170). -/
theorem State.Offers.runPhases_judged_succ (lt : i < j) (rejected : s.regs.rangeMax.toNat < c i)
    (silent : guardFires s.params (s.iter + i + 1) = false) :
    runPhases (n + 2) (judged s i) = runPhases n (judged s (i + 1)) := by
  have refused : accepts (judged s i).regs (judged s i).cand = false := by
    rw [offers.accepts_judged lt.le]
    exact decide_eq_false (Nat.not_le.2 rejected)
  rw [runPhases_of_rejected_of_group (s := judged s i) offers.phase refused silent ((offers.hasGroup_judged lt.le).2 lt),
    judged_succ, ← offers.phase]
  rfl

section
variable (le : i ≤ j) (rejected : ∀ k < i, s.regs.rangeMax.toNat < c k)
  (silent : i = 0 ∨ s.params.debugGuard = false ∨ s.iter + i < s.params.guardLimit)
include le rejected silent

/-- Rejected candidates are dropped, as long as the guard is silent (42_config_next R163). -/
theorem State.Offers.runPhases_judged : runPhases (2 * i + n) s = runPhases n (judged s i) := by
  induction i generalizing n with
  | zero => rw [judged_zero, Nat.mul_zero, Nat.zero_add]
  | succ i ih =>
    have still : s.params.debugGuard = false ∨ s.iter + i + 1 < s.params.guardLimit := silent.resolve_left (Nat.succ_ne_zero i)
    rw [show 2 * (i + 1) + n = 2 * i + (n + 2) by omega,
      ih (Nat.le_of_succ_le le) (fun k lt => rejected k (Nat.lt_succ_of_lt lt)) (.inr (still.imp_right Nat.lt_of_succ_lt)),
      offers.runPhases_judged_succ le (rejected i (Nat.lt_succ_self i)) (guardFires_eq_false_iff.2 still)]

/-- The first candidate in the range is the result (42_config_next R163). -/
theorem State.Offers.runPhases_of_accepted (accepted : c i ≤ s.regs.rangeMax.toNat) (fuel : 2 * i < n) :
    runPhases n s = retire .ok (BitVec.ofNat 64 (c i)) (iterAux (s.iter + i + 1)) { judged s i with iter := s.iter + i + 1 } := by
  obtain ⟨m, rfl⟩ := Nat.exists_eq_add_of_le fuel
  have inRange : accepts (judged s i).regs (judged s i).cand = true := by
    rw [offers.accepts_judged le]
    exact decide_eq_true accepted
  have value : BitVec.ofNat 64 (c i) = (judged s i).cand := by
    rw [← offers.cand i le, BitVec.ofNat_toNat, BitVec.setWidth_eq]
    rfl
  rw [Nat.succ_add_eq_add_succ, offers.runPhases_judged le rejected silent,
    Machine.runPhases_of_accepted (s := judged s i) offers.phase inRange, value]
  rfl

/-- A rejected candidate at which the guard is due raises CORRUPT_STATE (42_config_next R165). -/
theorem State.Offers.runPhases_of_raised (above : s.regs.rangeMax.toNat < c i) (present : s.params.debugGuard = true)
    (due : s.params.guardLimit ≤ s.iter + i + 1) (fuel : 2 * i < n) :
    runPhases n s = raiseCorrupt { judged s i with iter := s.iter + i + 1 } := by
  obtain ⟨m, rfl⟩ := Nat.exists_eq_add_of_le fuel
  have refused : accepts (judged s i).regs (judged s i).cand = false := by
    rw [offers.accepts_judged le]
    exact decide_eq_false (Nat.not_le.2 above)
  rw [Nat.succ_add_eq_add_succ, offers.runPhases_judged le rejected silent,
    runPhases_of_guardFires (s := judged s i) offers.phase refused (guardFires_iff.2 ⟨present, due⟩)]
  rfl

end

/-- When all candidates are rejected and the guard is silent, the buffer is used up and a word is asked for (42_config_next
R163). -/
theorem State.Offers.runPhases_of_none_accepted (rejected : ∀ k ≤ j, s.regs.rangeMax.toNat < c k)
    (silent : s.params.debugGuard = false ∨ s.iter + j + 1 < s.params.guardLimit) (fuel : 2 * j + 1 < n) :
    runPhases n s = issueRequest { s with
      cand := (judged s j).cand, regs := { s.regs with residual := 1 }, iter := s.iter + j + 1, phase := .extract } := by
  obtain ⟨m, rfl⟩ := Nat.exists_eq_add_of_le fuel
  have refused : accepts (judged s j).regs (judged s j).cand = false := by
    rw [offers.accepts_judged le_rfl]
    exact decide_eq_false (Nat.not_le.2 (rejected j le_rfl))
  have empty : hasGroup (judged s j).regs = false := by
    rw [← Bool.not_eq_true, offers.hasGroup_judged le_rfl]
    exact Nat.lt_irrefl j
  have alone : (judged s j).regs = { s.regs with residual := 1 } := by
    have none_left := offers.holdsGroups_judged le_rfl
    rw [Nat.sub_self] at none_left
    exact congrArg (fun v => { s.regs with residual := v }) none_left.eq_one
  rw [show 2 * j + 1 + 1 + m = 2 * j + (m + 2) by omega,
    offers.runPhases_judged le_rfl (fun k lt => rejected k lt.le) (.inr (silent.imp_right Nat.lt_of_succ_lt)),
    runPhases_of_rejected_of_empty (s := judged s j) offers.phase refused (guardFires_eq_false_iff.2 silent) empty, alone]
  rfl

end

end Sys2Proof.Machine
end

section
/-! SUPPORT. Where NEXT's candidates come from in mode ANY: the buffer, or the word just answered (41_buffer R132, R133, R136). -/

namespace Sys2Proof.Machine

section
variable {s : State}

theorem BufferParams.toNat_group (params : BufferParams s.regs) (i : Nat) :
    (s.regs.residual >>> (i * groupBits s.regs) &&& s.regs.bitMask).toNat = groupAt (groupBits s.regs) i s.regs.residual := by
  rw [params.toNat_and_bitMask, BitVec.toNat_ushiftRight, Nat.shiftRight_eq_div_pow, groupAt]

/-! ### The buffer -/

/-- NEXT in ARBITRATE with the first group of the buffer. -/
def firstGroup (s : State) : State := extractBuffered { startNext s with phase := .arbitrate }

/-- NEXT in ANY judges the groups of its buffer first (41_buffer R131). -/
theorem exec_next_of_holdsGroups (unfaulted : s.regs.fault = false) (configured : s.regs.cfgValid = true)
    (mode : s.regs.mode = .any) (params : BufferParams s.regs) {j : Nat}
    (groups : HoldsGroups (groupBits s.regs) (j + 1) s.regs.residual) :
    exec .next s = .next (runPhases 127 (firstGroup s)) := by
  have group : hasGroup s.regs = true := hasGroup_iff.2 ((groups.one_lt_iff params.groupBits_pos).2 (Nat.succ_pos j))
  rw [exec_next_of_buffered unfaulted configured (Mode.buffered_iff.2 (.inl mode)), nextBuffered_eq]
  exact congrArg _ (runPhases_extract_of_group rfl group)

/-- A buffer of `j + 1` groups offers them in order. -/
theorem BufferParams.offers_firstGroup (params : BufferParams s.regs) (mode : s.regs.mode = .any) {j : Nat}
    (groups : HoldsGroups (groupBits s.regs) (j + 1) s.regs.residual) :
    (firstGroup s).Offers j fun i => groupAt (groupBits s.regs) i s.regs.residual where
  phase := rfl
  mode := mode
  pos := params.groupBits_pos
  groups := by
    have left := groups.shift (i := 1) (Nat.succ_pos j)
    rwa [Nat.one_mul] at left
  cand i _ := by
    rw [firstGroup, ← Function.iterate_succ_apply, cand_iterate_extractBuffered_succ]
    exact params.toNat_group i

/-- What is left of the buffer after `i` more groups. -/
theorem judged_firstGroup_regs (i : Nat) :
    (judged (firstGroup s) i).regs = { s.regs with residual := s.regs.residual >>> ((i + 1) * groupBits s.regs) } := by
  rw [Nat.succ_mul, Nat.add_comm, BitVec.shiftRight_add]
  rfl

/-! ### The word -/

/-- NEXT in ARBITRATE with the first group of the answer `w`. -/
def firstCandidate (w : Word) (s : State) : State :=
  finishRefill { latchAnswer w s with phase := .arbitrate, wordLatch := w }

theorem step_eq_firstCandidate {w : Word} {rest : List Word} (rst : s.rst = false) (waits : s.phase = .srcwait)
    (pending : s.srcPending = true) (answered : s.answers = w :: rest) (buffered : s.regs.mode.buffered = true) :
    step s = .next (runPhases 128 (firstCandidate w { s with answers := rest })) := by
  rw [step_srcwait rst waits pending answered,
    takeAnswer_of_not_bypass (s := { s with answers := rest }) (Mode.ne_bypass_of_buffered buffered), latchAnswer,
    srcWidth_of_buffered buffered]
  rfl

/-- A word offers its `64 / b` groups in order. -/
theorem BufferParams.offers_firstCandidate (params : BufferParams s.regs) (mode : s.regs.mode = .any) (w : Word) :
    (firstCandidate w s).Offers (64 / groupBits s.regs - 1) fun i =>
      w.toNat / 2 ^ (excessBits s.regs + i * groupBits s.regs) % 2 ^ groupBits s.regs where
  phase := rfl
  mode := mode
  pos := params.groupBits_pos
  groups := by
    obtain ⟨pos, le, excess, -⟩ := params
    exact refillResidual_holdsGroups pos le excess w
  cand i le := by
    have lt : i < 64 / groupBits s.regs := Nat.lt_of_le_pred params.groups_pos le
    exact BufferParams.toNat_nthCandidate (s := { latchAnswer w s with phase := .arbitrate }) params w lt

end

end Sys2Proof.Machine
end

section
/-! The obligations on NEXT in mode ANY. -/

namespace Sys2Proof.Machine

/-- Settles O60: the word's groups are judged in order. -/
theorem answerReturnsTheFirstAcceptedGroup : Obligations.AnswerReturnsTheFirstAcceptedGroup := by
  intro s w rest i rst waits pending mode params answered b e cand left lt rejected accepted silent
  have buffered : s.regs.mode.buffered = true := Mode.buffered_iff.2 (.inl mode)
  have offers : (firstCandidate w { s with answers := rest }).Offers (64 / b - 1) cand :=
    BufferParams.offers_firstCandidate (s := { s with answers := rest }) params mode w
  have fuel : 64 / b ≤ 64 := Nat.div_le_self 64 b
  refine ⟨_, step_eq_firstCandidate rst waits pending answered buffered, ?_⟩
  rw [offers.runPhases_of_accepted (Nat.le_sub_one_of_lt lt) rejected silent accepted (by omega)]
  exact ⟨rfl, rfl, rfl, rfl, rfl, rfl, rfl, rfl, rfl, rfl, rfl⟩

/-- Settles O26: the word's groups are judged in order, up to the guard's limit or to the last. -/
theorem rejectedRefillRaisesOrAsksAgain : Obligations.RejectedRefillRaisesOrAsksAgain := by
  intro s w rest rst waits pending mode params answered b e G cand left due
  have buffered : s.regs.mode.buffered = true := Mode.buffered_iff.2 (.inl mode)
  have offers : (firstCandidate w { s with answers := rest }).Offers (G - 1) cand :=
    BufferParams.offers_firstCandidate (s := { s with answers := rest }) params mode w
  have pos : 0 < G := params.groups_pos
  have fuel : G ≤ 64 := Nat.div_le_self 64 b
  refine ⟨fun present within rejected => ?_, fun silent rejected => ?_⟩
  · have due_eq : due = max 1 (s.params.guardLimit - s.iter) := rfl
    have counted : s.iter + (due - 1) + 1 = s.iter + due := by omega
    have silent : due - 1 = 0 ∨ s.params.debugGuard = false ∨ s.iter + (due - 1) < s.params.guardLimit := by omega
    have reached : s.params.guardLimit ≤ s.iter + (due - 1) + 1 := by omega
    refine ⟨_, step_eq_firstCandidate rst waits pending answered buffered, ?_⟩
    rw [offers.runPhases_of_raised (Nat.sub_le_sub_right within 1) (fun k lt => rejected k (by omega)) silent
      (rejected (due - 1) (by omega)) present reached (by omega)]
    exact ⟨rfl, rfl, counted, rfl, rfl, rfl, rfl, rfl, rfl, rfl, rfl⟩
  · have counted : s.iter + (G - 1) + 1 = s.iter + G := by omega
    have width : s.requests ++ [srcWidth s.regs] = s.requests ++ [.w64] := by rw [srcWidth_of_buffered buffered]
    refine ⟨_, step_eq_firstCandidate rst waits pending answered buffered, ?_⟩
    rw [offers.runPhases_of_none_accepted (fun k le => rejected k (by omega)) (counted.symm ▸ silent) (by omega)]
    exact ⟨rfl, rfl, counted, rfl, rfl, width, rfl, rfl, rfl, rfl, rfl⟩

/-- Settles O27: the buffered groups are judged in order. -/
theorem nextAnyReturnsTheFirstAcceptedGroup : Obligations.NextAnyReturnsTheFirstAcceptedGroup := by
  intro s j i unfaulted configured mode params b res groups lt rejected accepted silent
  obtain ⟨j, rfl⟩ := Nat.exists_eq_add_one_of_ne_zero (Nat.ne_zero_of_lt lt)
  have few := groups.lt params.groupBits_pos
  have counted : (firstGroup s).iter + i = i := Nat.zero_add i
  have aux : iterAux (i + 1) = BitVec.ofNat 8 (i + 1) := by rw [iterAux, min_eq_left (by omega)]
  have offers : (firstGroup s).Offers j fun i => groupAt b i res := params.offers_firstGroup mode groups
  refine ⟨_, exec_next_of_holdsGroups unfaulted configured mode params groups, ?_⟩
  rw [offers.runPhases_of_accepted (Nat.le_of_lt_succ lt) rejected (.inr (counted.symm ▸ silent)) accepted (by omega),
    counted, aux]
  exact ⟨rfl, judged_firstGroup_regs i, rfl, rfl, rfl, rfl, rfl, rfl, rfl, rfl, rfl⟩

/-- Settles O28: the buffered groups are judged in order, to the last. -/
theorem nextAnyUsesUpTheBufferBeforeRefill : Obligations.NextAnyUsesUpTheBufferBeforeRefill := by
  intro s j unfaulted configured mode params b res groups rejected silent
  have buffered : s.regs.mode.buffered = true := Mode.buffered_iff.2 (.inl mode)
  have width : s.requests ++ [srcWidth s.regs] = s.requests ++ [.w64] := by rw [srcWidth_of_buffered buffered]
  cases j with
  | zero =>
    have alone : res = 1 := groups.eq_one
    have empty : hasGroup s.regs = false := by
      rw [← Bool.not_eq_true, hasGroup_iff, groups.one_lt_iff params.groupBits_pos]
      exact Nat.lt_irrefl 0
    refine ⟨_, exec_next_of_buffered unfaulted configured buffered, ?_⟩
    rw [nextBuffered_of_empty (s := startNext s) empty, ← alone]
    exact ⟨rfl, rfl, rfl, rfl, rfl, width, rfl, rfl, rfl, rfl, rfl⟩
  | succ j =>
    have few := groups.lt params.groupBits_pos
    have counted : (firstGroup s).iter + j = j := Nat.zero_add j
    have offers : (firstGroup s).Offers j fun i => groupAt b i res := params.offers_firstGroup mode groups
    refine ⟨_, exec_next_of_holdsGroups unfaulted configured mode params groups, ?_⟩
    rw [offers.runPhases_of_none_accepted (fun k le => rejected k (Nat.lt_succ_of_le le)) (counted.symm ▸ silent) (by omega),
      counted]
    exact ⟨rfl, rfl, rfl, rfl, rfl, width, rfl, rfl, rfl, rfl, rfl⟩

/-- Settles O29: the buffered groups are judged in order, up to the guard's limit. -/
theorem guardStopsNextAtItsLimit : Obligations.GuardStopsNextAtItsLimit := by
  intro s j unfaulted configured mode params b res limit groups present within rejected
  have limit_eq : limit = s.params.guardLimitPred + 1 := rfl
  obtain ⟨j, rfl⟩ := Nat.exists_eq_add_one_of_ne_zero (n := j) (by omega)
  have few := groups.lt params.groupBits_pos
  have counted : (firstGroup s).iter + (limit - 1) = limit - 1 := Nat.zero_add _
  have silent : (firstGroup s).iter + (limit - 1) < limit := by omega
  have reached : limit ≤ (firstGroup s).iter + (limit - 1) + 1 := by omega
  have offers : (firstGroup s).Offers j fun i => groupAt b i res := params.offers_firstGroup mode groups
  refine ⟨_, exec_next_of_holdsGroups unfaulted configured mode params groups, ?_⟩
  rw [offers.runPhases_of_raised (by omega) (fun k lt => rejected k (by omega)) (.inr (.inr silent))
    (rejected (limit - 1) (by omega)) present reached (by omega), counted]
  exact ⟨rfl, congrArg (fun r : Regs => { r with fault := true }) (judged_firstGroup_regs (limit - 1)),
    rfl, rfl, rfl, rfl, rfl, rfl, rfl, rfl, rfl⟩

end Sys2Proof.Machine
end

section
/-! SUPPORT. The classifier line by line: which range each mode is for, and the bit counts that divide a word (42_config_next R141,
R142). -/

namespace Sys2Proof.Machine

/-- The mode a CFG of the range `r` sets at width `w` (42_config_next R140, R141). -/
def modeOf (w : Width) (r : Word) : Mode := classify w r (smear r) (bitCountOf r)

/-- The bit counts that divide a word, but for its own (42_config_next R142). -/
theorem mem_divisors_iff : ∀ b ≤ 64, b ∈ [1, 2, 4, 8, 16, 32] ↔ 1 ≤ b ∧ b < 64 ∧ 64 % b = 0 := by decide

section
variable {w : Width} {r : Word}

/-! ### The lines of R141 -/

theorem modeOf_eq_bypass_iff : modeOf w r = .bypass ↔ r.toNat = widthMax w ∧ (w = .w32 ∨ w = .w64) := by
  unfold modeOf classify
  split_ifs <;> simp_all

theorem modeOf_eq_const_iff : modeOf w r = .const ↔ r = 0 := by
  have bypass_ne_zero : r.toNat = widthMax w → r ≠ 0 := by
    rintro h rfl
    cases w <;> simp [widthMax, Width.bits] at h
  unfold modeOf classify
  split_ifs <;> simp_all

theorem modeOf_eq_popot_iff :
    modeOf w r = .popot ↔ modeOf w r ≠ .bypass ∧ r ≠ 0 ∧ smear r = r ∧ 64 % bitCountOf r = 0 := by
  unfold modeOf classify
  split_ifs <;> simp_all

theorem modeOf_eq_pot_iff :
    modeOf w r = .pot ↔ modeOf w r ≠ .bypass ∧ r ≠ 0 ∧ smear r = r ∧ 64 % bitCountOf r ≠ 0 := by
  unfold modeOf classify
  split_ifs <;> simp_all

theorem modeOf_eq_any_iff : modeOf w r = .any ↔ modeOf w r ≠ .bypass ∧ r ≠ 0 ∧ smear r ≠ r := by
  unfold modeOf classify
  split_ifs <;> simp_all

theorem buffered_modeOf_iff : (modeOf w r).buffered = true ↔ modeOf w r ≠ .bypass ∧ r ≠ 0 := by
  unfold modeOf classify
  split_ifs <;> simp_all [Mode.buffered]

/-! ### The bit count of a range -/

theorem eq_two_pow_sub_one_iff {k : Nat} : r.toNat = 2 ^ k - 1 ↔ bitCountOf r = k ∧ smear r = r := by
  rw [smear_eq_self_iff]
  constructor
  · intro h
    rw [bitCountOf_of_toNat h]
    exact ⟨rfl, h⟩
  · rintro ⟨rfl, h⟩
    exact h

theorem bitCountOf_pos : r ≠ 0 ↔ 1 ≤ bitCountOf r := by
  rw [Nat.one_le_iff_ne_zero, ne_eq, ne_eq, bitCountOf_eq_zero]

/-- Two or more needs a second bit. -/
theorem two_le_bitCountOf_iff : 2 ≤ bitCountOf r ↔ 2 ≤ r.toNat := by
  rw [← not_iff_not, Nat.not_le, Nat.not_le, Nat.lt_succ_iff, bitCountOf_le_iff, Nat.pow_one]

/-- The whole word is in use from `2 ^ 63` on (42_config_next R142 (e)). -/
theorem bitCountOf_eq_64_iff : bitCountOf r = 64 ↔ 2 ^ 63 ≤ r.toNat := by
  have le := bitCountOf_le r
  rw [← not_lt, ← bitCountOf_le_iff (k := 63)]
  omega

/-! ### Ranges that fit their width -/

theorem modeOf_eq_bypass_iff_bitCountOf :
    modeOf w r = .bypass ↔ smear r = r ∧ bitCountOf r = w.bits ∧ (w = .w32 ∨ w = .w64) := by
  rw [modeOf_eq_bypass_iff, widthMax, eq_two_pow_sub_one_iff, and_comm (a := bitCountOf r = w.bits), and_assoc]

theorem bits_le_32 (narrow : w ≠ .w64) : w.bits ≤ 32 := by
  cases w <;> simp_all [Width.bits]

section
variable (fits : r.toNat ≤ 2 ^ w.bits - 1)
include fits

theorem bitCountOf_le_bits : bitCountOf r ≤ w.bits := (smear_least fits).2

/-- A range of 64 bits needs the widest output (42_config_next R142 (e)). -/
theorem width_of_bitCountOf_eq_64 (whole : bitCountOf r = 64) : w = .w64 := by
  by_contra narrow
  have := bitCountOf_le_bits fits
  have := bits_le_32 narrow
  omega

/-- The full 64-bit range is BYPASS (42_config_next R142 (a)). -/
theorem modeOf_of_full_word (full : r.toNat = 2 ^ 64 - 1) : modeOf w r = .bypass := by
  obtain ⟨count, mask⟩ := eq_two_pow_sub_one_iff.1 full
  obtain rfl := width_of_bitCountOf_eq_64 fits count
  exact modeOf_eq_bypass_iff_bitCountOf.2 ⟨mask, count, .inr rfl⟩

/-- POPOT is for the bit counts that divide 64 (42_config_next R142 (a)). -/
theorem modeOf_eq_popot_iff_exists :
    modeOf w r = .popot ↔ modeOf w r ≠ .bypass ∧ ∃ k ∈ [1, 2, 4, 8, 16, 32], r.toNat = 2 ^ k - 1 := by
  rw [modeOf_eq_popot_iff, bitCountOf_pos]
  refine and_congr_right fun notBypass => ?_
  constructor
  · rintro ⟨pos, mask, divides⟩
    have notWhole : bitCountOf r ≠ 64 := fun h => notBypass (modeOf_of_full_word fits (eq_two_pow_sub_one_iff.2 ⟨h, mask⟩))
    have le := bitCountOf_le r
    exact ⟨bitCountOf r, (mem_divisors_iff _ le).2 ⟨pos, by omega, divides⟩, eq_two_pow_sub_one_iff.2 ⟨rfl, mask⟩⟩
  · rintro ⟨k, mem, h⟩
    obtain ⟨rfl, mask⟩ := eq_two_pow_sub_one_iff.1 h
    obtain ⟨pos, -, divides⟩ := (mem_divisors_iff _ (bitCountOf_le r)).1 mem
    exact ⟨pos, mask, divides⟩

/-- A full 8-bit, 16-bit or, at a wider output, 32-bit range is POPOT (42_config_next R142 (a), (d)). -/
theorem modeOf_of_full_part {k : Nat} (part : k ∈ [8, 16, 32]) (full : r.toNat = 2 ^ k - 1) (notBypass : k = 32 → w ≠ .w32) :
    modeOf w r = .popot := by
  refine (modeOf_eq_popot_iff_exists fits).2 ⟨fun bypass => ?_, k, List.mem_of_mem_drop (i := 3) part, full⟩
  obtain ⟨-, count, wide⟩ := modeOf_eq_bypass_iff_bitCountOf.1 bypass
  rw [bitCountOf_of_toNat full] at count
  rcases wide with rfl | rfl
  · exact notBypass count rfl
  · rw [count] at part
    simp [Width.bits] at part

/-- A buffered mode takes one group from a word exactly for these ranges (42_config_next R142 (e)). -/
theorem buffered_and_bitCountOf_eq_64_iff :
    (modeOf w r).buffered = true ∧ bitCountOf r = 64 ↔ w = .w64 ∧ 2 ^ 63 ≤ r.toNat ∧ r.toNat < 2 ^ 64 - 1 := by
  rw [buffered_modeOf_iff]
  constructor
  · rintro ⟨⟨notBypass, -⟩, whole⟩
    have notFull : r.toNat ≠ 2 ^ 64 - 1 := mt (modeOf_of_full_word fits) notBypass
    have lt := r.isLt
    exact ⟨width_of_bitCountOf_eq_64 fits whole, bitCountOf_eq_64_iff.1 whole, by omega⟩
  · rintro ⟨rfl, large, notFull⟩
    have whole := bitCountOf_eq_64_iff.2 large
    refine ⟨⟨fun bypass => ?_, bitCountOf_pos.2 (by omega)⟩, whole⟩
    exact notFull.ne (modeOf_eq_bypass_iff.1 bypass).1

end

/-- POT is for the bit counts that do not (42_config_next R142 (b)). -/
theorem modeOf_eq_pot_iff_exists :
    modeOf w r = .pot ↔ ∃ k, 3 ≤ k ∧ k ≤ 63 ∧ k ∉ [4, 8, 16, 32] ∧ r.toNat = 2 ^ k - 1 := by
  have others : ∀ b ≤ 64, 1 ≤ b ∧ 64 % b ≠ 0 ↔ 3 ≤ b ∧ b ≤ 63 ∧ b ∉ [4, 8, 16, 32] := by decide
  rw [modeOf_eq_pot_iff, bitCountOf_pos]
  constructor
  · rintro ⟨-, pos, mask, divides⟩
    obtain ⟨lower, upper, other⟩ := (others _ (bitCountOf_le r)).1 ⟨pos, divides⟩
    exact ⟨bitCountOf r, lower, upper, other, eq_two_pow_sub_one_iff.2 ⟨rfl, mask⟩⟩
  · rintro ⟨k, lower, upper, other, h⟩
    obtain ⟨rfl, mask⟩ := eq_two_pow_sub_one_iff.1 h
    obtain ⟨pos, divides⟩ := (others _ (bitCountOf_le r)).2 ⟨lower, upper, other⟩
    refine ⟨fun bypass => ?_, pos, mask, divides⟩
    obtain ⟨-, count, rfl | rfl⟩ := modeOf_eq_bypass_iff_bitCountOf.1 bypass
    · exact divides (count ▸ rfl)
    · exact divides (count ▸ rfl)

/-- ANY is for the ranges that are no mask (42_config_next R142 (c)). -/
theorem modeOf_eq_any_iff_forall : modeOf w r = .any ↔ 2 ≤ r.toNat ∧ ∀ k : Nat, r.toNat ≠ 2 ^ k - 1 := by
  rw [modeOf_eq_any_iff]
  constructor
  · rintro ⟨-, nonzero, noMask⟩
    have differs (k : Nat) : r.toNat ≠ 2 ^ k - 1 := fun h => noMask (eq_two_pow_sub_one_iff.1 h).2
    have := differs 0
    have := differs 1
    exact ⟨by omega, differs⟩
  · rintro ⟨two_le, differs⟩
    have noMask : smear r ≠ r := fun h => differs _ (smear_eq_self_iff.1 h)
    have nonzero : r ≠ 0 := bitCountOf_pos.2 (Nat.le_of_succ_le (two_le_bitCountOf_iff.2 two_le))
    exact ⟨fun bypass => noMask (modeOf_eq_bypass_iff_bitCountOf.1 bypass).1, nonzero, noMask⟩

end

end Sys2Proof.Machine
end

section
/-! SUPPORT. CFG outcome by outcome, and NEXT where no buffer is used (42_config_next R140, R161, R162). -/

namespace Sys2Proof.Machine

/-! ### CFG -/

theorem decode_cfgCommand (w : Width) (r : Word) :
    decode ⟨0x01#8 ||| ((widthCode w).setWidth 8 <<< 4), r⟩ = .ok (cfgInstr w r) := by
  cases w <;> exact decode_of_opcodeByte rfl (.inl rfl)

theorem exec_cfgInstr (w : Width) (r : Word) (s : State) : exec (cfgInstr w r) s = .next (configure w r s) := by
  cases w <;> rfl

theorem excessOf_eq_ite (b : Nat) : excessOf b = if b = 0 then 0 else 64 % b := by
  cases b <;> simp [excessOf]

section
variable {w : Width} {r : Word} {s : State}

theorem configure_of_faulted (faulted : s.regs.fault = true) : configure w r s = respondError .faulted s := if_pos faulted

theorem configure_of_wide (unfaulted : s.regs.fault = false) (wide : widthMax w < r.toNat) :
    configure w r s = respondError .rangeWidth s := by
  simp [configure, unfaulted, wide]

theorem configure_of_fits (unfaulted : s.regs.fault = false) (fits : r.toNat ≤ widthMax w) :
    configure w r s = respond .ok 0 ((modeCode (configuredRegs w r s.regs).mode).setWidth 8)
      { s with regs := configuredRegs w r s.regs } := by
  simp [configure, unfaulted, Nat.not_lt.2 fits]

/-! ### NEXT in CONST and BYPASS -/

theorem nextByMode_of_const (mode : s.regs.mode = .const) : nextByMode s = respond .ok 0 0 s := by
  simp [nextByMode, mode]

theorem nextByMode_of_bypass (mode : s.regs.mode = .bypass) : nextByMode s = issueRequest s := by
  simp [nextByMode, mode]

theorem step_of_bypass {w : Word} {rest : List Word} (rst : s.rst = false) (waits : s.phase = .srcwait)
    (pending : s.srcPending = true) (answered : s.answers = w :: rest) (mode : s.regs.mode = .bypass) :
    step s = .next (retire .ok (latchedWord (srcWidth s.regs) w) 0 (latchAnswer w { s with answers := rest })) :=
  (step_srcwait rst waits pending answered).trans (congrArg _ (takeAnswer_of_bypass (s := { s with answers := rest }) mode))

/-- The low 32 bits, or the whole word (20_memory R55). -/
theorem latchedWord_eq_ite (width : SrcWidth) (x : Word) :
    latchedWord width x = if width = .w32 then BitVec.ofNat 64 (x.toNat % 2 ^ 32) else x := by
  cases width <;> simp [latchedWord, ← BitVec.toNat_inj]

end

end Sys2Proof.Machine
end

section
/-! The obligations on CFG, and on NEXT in CONST and BYPASS. -/

namespace Sys2Proof.Machine

/-- Settles O17, by CFG's three outcomes. -/
theorem cfgConfiguresOrRefuses : Obligations.CfgConfiguresOrRefuses := by
  intro s w r
  rw [exec_cfgInstr, ← excessOf_eq_ite]
  refine ⟨⟨decode_cfgCommand w r, by cases w <;> rfl⟩, fun faulted => ?_, fun unfaulted wide => ?_, fun unfaulted fits => ?_,
    rfl, rfl, rfl, rfl, rfl, rfl⟩
  · rw [configure_of_faulted faulted]
    rfl
  · rw [configure_of_wide unfaulted wide]
    rfl
  · rw [configure_of_fits unfaulted fits, configuredRegs, unfaulted]
    rfl

/-- Settles O18: each mode's line of R141, with the range told by its bit count. -/
theorem modeByRange : Obligations.ModeByRange := by
  intro w r fits m
  refine ⟨modeOf_eq_bypass_iff, modeOf_eq_const_iff, modeOf_eq_popot_iff_exists fits, modeOf_eq_pot_iff_exists,
    modeOf_eq_any_iff_forall, fun any => ?_, modeOf_of_full_word fits, fun full => ⟨fun narrow => ?_, fun wide => ?_⟩,
    fun narrow full => ?_, fun narrow full => ?_, ?_⟩
  · exact ⟨two_le_bitCountOf_iff.2 (modeOf_eq_any_iff_forall.1 any).1, bitCountOf_le r⟩
  · exact modeOf_eq_bypass_iff.2 ⟨narrow ▸ full, .inl narrow⟩
  · exact modeOf_of_full_part fits (k := 32) (by decide) full fun _ => wide ▸ nofun
  · exact ⟨modeOf_of_full_part fits (k := 8) (by decide) full nofun, bitCountOf_of_toNat (n := 8) full⟩
  · exact ⟨modeOf_of_full_part fits (k := 16) (by decide) full nofun, bitCountOf_of_toNat (n := 16) full⟩
  · exact buffered_and_bitCountOf_eq_64_iff fits

/-- Settles O21: CONST's line of NEXT. -/
theorem nextConstAnswersZero : Obligations.NextConstAnswersZero := by
  intro s unfaulted configured mode
  refine (execNext_of_configured unfaulted configured).trans ?_
  rw [nextByMode_of_const (s := startNext s) mode]
  rfl

/-- Settles O22: BYPASS's line of NEXT, and its answer. -/
theorem nextBypassReturnsTheRawDraw : Obligations.NextBypassReturnsTheRawDraw := by
  intro s width unfaulted configured mode wide
  obtain rfl : srcWidth s.regs = width := by
    rw [srcWidth_eq_ite]
    rcases wide with ⟨narrow, rfl⟩ | ⟨wide, rfl⟩
    · exact if_pos ⟨mode, narrow⟩
    · exact if_neg (by simp [wide])
  refine ⟨(execNext_of_configured unfaulted configured).trans ?_, fun x rest rst => ?_⟩
  · rw [nextByMode_of_bypass (s := startNext s) mode]
    rfl
  · refine ⟨_, step_of_bypass (s := { s with
      iter := 0, srcPending := true, phase := .srcwait, requests := s.requests ++ [srcWidth s.regs], answers := x :: rest })
      rst rfl rfl rfl mode, ?_⟩
    rw [← latchedWord_eq_ite]
    exact ⟨rfl, rfl, rfl, rfl, rfl, rfl, rfl, rfl, rfl, rfl, rfl⟩

end Sys2Proof.Machine
end

section
/-! SUPPORT. What a NEXT may answer: a candidate has no bit outside the mask, and an accepted one is in the range (42_config_next
R163, R171). -/

namespace Sys2Proof.Machine

/-! ### A NEXT that draws, phase by phase -/

/-- In a running NEXT of a buffered mode the candidate to be judged is under the mask, and a result is in the range. -/
structure State.InRange (s : State) : Prop where
  exact : s.regs.mode = .any ∨ s.regs.bitMask = s.regs.rangeMax
  cand : s.phase = .arbitrate → s.cand.toNat ≤ s.regs.bitMask.toNat
  result : ∀ r, s.phase = .respond r → r.status = .ok → r.data.toNat ≤ s.regs.rangeMax.toNat

theorem toNat_and_le_right (x y : Word) : (x &&& y).toNat ≤ y.toNat := by
  rw [BitVec.toNat_and]
  exact Nat.and_le_right

section
variable {s : State} (h : s.InRange)
include h

theorem State.InRange.extractPhase : (extractPhase s).InRange := by
  rcases extractPhase_cases s with ⟨-, k⟩ | ⟨-, k⟩ <;> rw [k]
  · exact ⟨h.exact, fun _ => toNat_and_le_right _ _, nofun⟩
  · exact ⟨h.exact, nofun, nofun⟩

/-- An accepted candidate is in the range: by comparison in ANY, by the mask otherwise (42_config_next R163, R166). -/
theorem State.InRange.le_of_accepts (phase : s.phase = .arbitrate) (accepted : accepts s.regs s.cand = true) :
    s.cand.toNat ≤ s.regs.rangeMax.toNat := by
  rcases h.exact with mode | whole
  · simpa [accepts_of_any mode] using accepted
  · exact whole ▸ h.cand phase

theorem State.InRange.arbitratePhase (phase : s.phase = .arbitrate) : (arbitratePhase s).InRange := by
  rcases arbitratePhase_cases s with ⟨accepted, k⟩ | ⟨-, -, k⟩ | ⟨-, -, k⟩ <;> rw [k]
  · refine ⟨h.exact, nofun, fun r answered _ => ?_⟩
    obtain rfl := Phase.respond.inj answered
    exact h.le_of_accepts phase accepted
  · refine ⟨h.exact, nofun, fun r answered ok => ?_⟩
    obtain rfl := Phase.respond.inj answered
    cases ok
  · exact ⟨h.exact, nofun, nofun⟩

theorem State.InRange.runPhases (n : Nat) : (runPhases n s).InRange :=
  runPhases_induct (P := fun s t => s.InRange → t.InRange) (fun _ => id) (fun _ _ _ k h => k h.extractPhase)
    (fun _ _ phase k h => k (h.arbitratePhase phase)) n s h

/-- No phase writes RANGE_MAX (10_state R20). -/
theorem State.InRange.le_rangeMax {n : Nat} {r : Response} (answered : (Machine.runPhases n s).phase = .respond r)
    (ok : r.status = .ok) : r.data.toNat ≤ s.regs.rangeMax.toNat := by
  have result := (h.runPhases n).result r answered ok
  rwa [runPhases_sameConfig n s] at result

end

/-! ### NEXT and its answer -/

/-- The raw draw of BYPASS is below `2 ^ N` (42_config_next R162). -/
theorem toNat_latchedWord_le_widthMax {r : Regs} (mode : r.mode = .bypass) (wide : r.wsel = .w32 ∨ r.wsel = .w64) (w : Word) :
    (latchedWord (srcWidth r) w).toNat ≤ widthMax r.wsel := by
  rcases wide with narrow | wide
  · have lt : w.toNat % 2 ^ 32 < 2 ^ 32 := Nat.mod_lt _ (Nat.two_pow_pos 32)
    rw [srcWidth_eq_ite, if_pos ⟨mode, narrow⟩, latchedWord_eq_ite, if_pos rfl, narrow, BitVec.toNat_ofNat]
    exact (Nat.mod_le _ _).trans (Nat.le_sub_one_of_lt lt)
  · rw [srcWidth_eq_ite, if_neg (by simp [wide]), wide]
    exact Nat.le_sub_one_of_lt w.isLt

theorem Regs.Inv.exact_of_buffered {r : Regs} (inv : r.Inv) (configured : r.cfgValid = true) (buffered : r.mode.buffered = true) :
    r.mode = .any ∨ r.bitMask = r.rangeMax :=
  (Mode.buffered_iff.1 buffered).imp_right (inv.bitMask_of_pow2 configured)

section
variable {s : State} {r : Response} (inv : s.regs.Inv) (configured : s.regs.cfgValid = true)
include inv configured

theorem nextByMode_le_rangeMax (answered : (nextByMode (startNext s)).phase = .respond r) (ok : r.status = .ok) :
    r.data.toNat ≤ s.regs.rangeMax.toNat := by
  rcases nextByMode_cases (startNext s) with ⟨-, k⟩ | ⟨-, k⟩ | ⟨buffered, k⟩ | ⟨-, k⟩ <;> rw [k] at answered
  · obtain rfl := Phase.respond.inj answered
    exact Nat.zero_le _
  · cases answered
  · have start : State.InRange { startNext s with phase := .extract } :=
      ⟨inv.exact_of_buffered configured buffered, nofun, nofun⟩
    exact start.le_rangeMax answered ok
  · obtain rfl := Phase.respond.inj answered
    cases ok

theorem takeAnswer_le_rangeMax {w : Word} (draws : s.regs.mode = .bypass ∨ s.regs.mode.buffered = true)
    (answered : (takeAnswer w s).phase = .respond r) (ok : r.status = .ok) : r.data.toNat ≤ s.regs.rangeMax.toNat := by
  rcases takeAnswer_cases w s with ⟨mode, k⟩ | ⟨mode, k⟩ <;> rw [k] at answered
  · obtain ⟨range, wide⟩ := modeOf_eq_bypass_iff.1 ((inv.mode configured).symm.trans mode)
    obtain rfl := Phase.respond.inj answered
    exact range ▸ toNat_latchedWord_le_widthMax mode wide w
  · have start : State.InRange { finishRefill (latchAnswer w s) with phase := .arbitrate } :=
      ⟨inv.exact_of_buffered configured (draws.resolve_left mode), fun _ => toNat_and_le_right _ _, nofun⟩
    exact start.le_rangeMax answered ok

end

/-! ### The steps of a NEXT -/

section
variable {s t : State} {rest : List Command}

theorem step_of_accepting {i : Instr} (accepting : s.Accepting i rest) : step s = exec i { s with cmds := rest } := by
  obtain ⟨rst, idle, c, port, decoded⟩ := accepting
  rw [step_idle rst idle port, acceptCommand_of_decode decoded]

/-- A step out of SRCWAIT takes an answer (20_memory R55). -/
theorem takeAnswer_of_step (rst : s.rst = false) (waits : s.phase = .srcwait) (h : step s = .next t) :
    s.srcPending = true ∧ ∃ w rest, s.answers = w :: rest ∧ t = takeAnswer w { s with answers := rest } := by
  rcases step_cases h with ⟨reset, -⟩ | ⟨-, idle, -⟩ | ⟨-, -, taken⟩ | ⟨-, ⟨r, phase, -⟩, -⟩ | ⟨-, phase, -⟩
  · simp [rst] at reset
  · simp [waits] at idle
  · exact taken
  · simp [waits] at phase
  · simp [waits] at phase

end

end Sys2Proof.Machine
end

section
/-! SUPPORT. NEXT under another strategy label (42_config_next R168): with `BIT_MASK = RANGE_MAX` no candidate is rejected under
any. -/

namespace Sys2Proof.Machine

theorem accepts_and_bitMask {r : Regs} (exact : r.bitMask = r.rangeMax) (x : Word) : accepts r (x &&& r.bitMask) = true := by
  have le := toNat_and_le_right x r.bitMask
  rw [accepts, Bool.or_eq_true, decide_eq_true_iff, ← exact]
  exact .inr le

section
variable {s : State} {m m' : Mode} (buffered : m.buffered = true) (buffered' : m'.buffered = true)
  (exact : s.regs.bitMask = s.regs.rangeMax)
include buffered buffered'

theorem issueRequest_relabel : issueRequest (relabel m' s) = relabel m' (issueRequest (relabel m s)) := by
  have same : srcWidth (relabel m' s).regs = srcWidth (relabel m s).regs :=
    (srcWidth_of_buffered buffered').trans (srcWidth_of_buffered buffered).symm
  rw [issueRequest, same]
  rfl

include exact

theorem nextBuffered_relabel : nextBuffered (relabel m' s) = relabel m' (nextBuffered (relabel m s)) := by
  have accepted (m : Mode) : accepts (relabel m s).regs ((relabel m s).regs.residual &&& (relabel m s).regs.bitMask) = true :=
    accepts_and_bitMask (r := (relabel m s).regs) exact _
  cases group : hasGroup s.regs with
  | false =>
    rw [nextBuffered_of_empty (s := relabel m' s) group, nextBuffered_of_empty (s := relabel m s) group]
    exact issueRequest_relabel buffered buffered'
  | true =>
    rw [nextBuffered_of_group (s := relabel m' s) group (accepted m'), nextBuffered_of_group (s := relabel m s) group (accepted m)]
    rfl

theorem takeAnswer_relabel (w : Word) : takeAnswer w (relabel m' s) = relabel m' (takeAnswer w (relabel m s)) := by
  have accepted (m : Mode) : accepts (relabel m s).regs (refillCandidate (relabel m s).regs w) = true :=
    accepts_and_bitMask (r := (relabel m s).regs) exact _
  rw [takeAnswer_of_accepted buffered' (accepted m'), takeAnswer_of_accepted buffered (accepted m)]
  rfl

end

end Sys2Proof.Machine
end

section
/-! SUPPORT. How far a guarded NEXT can go: each answer it takes without a result counts at least one extraction (42_config_next
R163, R165). -/

namespace Sys2Proof.Machine

theorem extractPhase_iter (s : State) : (extractPhase s).iter = s.iter := by
  rcases extractPhase_cases s with ⟨-, h⟩ | ⟨-, h⟩ <;> rw [h] <;> rfl

theorem arbitratePhase_iter (s : State) : (arbitratePhase s).iter = s.iter + 1 := by
  rcases arbitratePhase_cases s with ⟨-, h⟩ | ⟨-, -, h⟩ | ⟨-, -, h⟩ <;> rw [h] <;> rfl

theorem iter_le_runPhases (n : Nat) (s : State) : s.iter ≤ (runPhases n s).iter :=
  runPhases_induct (P := fun s t => s.iter ≤ t.iter) (fun _ => le_rfl) (fun s _ _ h => (extractPhase_iter s).ge.trans h)
    (fun s _ _ h => Nat.le_of_succ_le ((arbitratePhase_iter s).ge.trans h)) n s

section
variable {s : State}

/-- A taken answer counts its own candidate at least. -/
theorem iter_lt_takeAnswer (mode : s.regs.mode ≠ .bypass) (w : Word) : s.iter < (takeAnswer w s).iter := by
  rw [takeAnswer_of_not_bypass mode, phaseFuel, runPhases_arbitrate rfl]
  have counted := arbitratePhase_iter { finishRefill (latchAnswer w s) with phase := .arbitrate }
  exact counted.ge.trans (iter_le_runPhases 127 _)

/-- A command in progress waits for the BitSource or for the host (42_config_next R170). -/
theorem State.Inv.waits_or_responds (inv : s.Inv) (busy : s.phase ≠ .idle) : s.phase = .srcwait ∨ ∃ r, s.phase = .respond r := by
  cases h : s.phase with
  | idle => exact absurd h busy
  | extract => exact absurd h inv.notExtract
  | arbitrate => exact absurd h inv.notArbitrate
  | srcwait => exact .inl rfl
  | respond r => exact .inr ⟨r, rfl⟩

/-- A NEXT that goes on waiting after an answer has extracted more, and is still below the guard's limit (42_config_next R165). -/
theorem State.Inv.iter_lt_of_takeAnswer_waits (inv : s.Inv) (waits : s.phase = .srcwait) (guard : s.params.debugGuard = true)
    {w : Word} (still : (takeAnswer w s).phase = .srcwait) :
    s.iter < (takeAnswer w s).iter ∧ (takeAnswer w s).iter < s.params.guardLimit := by
  obtain ⟨-, -, draws⟩ := inv.waiting waits
  have pins := takeAnswer_samePins w s
  rcases takeAnswer_cases w s with ⟨-, h⟩ | ⟨mode, h⟩
  · rw [h] at still
    cases still
  · have buffered : (takeAnswer w s).regs.mode.buffered = true := by
      rw [h, runPhases_sameConfig]
      exact (draws.resolve_left mode).1
    have below := (takeAnswer_inv inv waits w).guarded still buffered (pins.params.symm ▸ guard)
    exact ⟨iter_lt_takeAnswer mode w, pins.params ▸ below⟩

/-- From `s` to `t` a guarded NEXT has taken an answer, and waits for another. -/
structure StillWaits (s t : State) : Prop where
  inv : t.Inv
  waits : t.phase = .srcwait
  params : t.params = s.params
  more : s.iter < t.iter
  below : t.iter < s.params.guardLimit
  answers : s.answers.length = t.answers.length + 1

theorem State.Inv.responds_or_stillWaits (inv : s.Inv) (waits : s.phase = .srcwait) (guard : s.params.debugGuard = true)
    (some : 0 < s.answers.length) : ∃ t, step s = .next t ∧ ((∃ r, t.phase = .respond r) ∨ StillWaits s t) := by
  obtain ⟨w, rest, answered⟩ := List.exists_cons_of_length_pos some
  have first := step_srcwait (inv.rst_eq_false (by simp [waits])) waits (inv.pending.2 waits) answered
  have pins := takeAnswer_samePins w { s with answers := rest }
  have inv' := step_inv inv first
  refine ⟨_, first, (inv'.waits_or_responds (takeAnswer_not_idle w _)).symm.imp_right fun still => ?_⟩
  obtain ⟨more, below⟩ := (inv.withInputs s.cmds rest).iter_lt_of_takeAnswer_waits waits guard still
  exact ⟨inv', still, pins.params, more, below, by rw [pins.answers, answered, List.length_cons]⟩

/-- A guarded NEXT that waits ends with the answers its guard allows (42_config_next R165). -/
theorem State.Inv.exists_reaches_respond {n : Nat} (inv : s.Inv) (waits : s.phase = .srcwait)
    (guard : s.params.debugGuard = true) (enough : n < s.answers.length) (due : s.params.guardLimit ≤ s.iter + n + 1) :
    ∃ k t r, k ≤ n + 1 ∧ Reaches k s t ∧ t.phase = .respond r := by
  induction n generalizing s with
  | zero =>
    obtain ⟨t, first, ⟨r, responds⟩ | still⟩ := inv.responds_or_stillWaits waits guard enough
    · exact ⟨1, t, r, le_rfl, ⟨t, first, rfl⟩, responds⟩
    · obtain ⟨-, -, -, more, below, -⟩ := still
      omega
  | succ n ih =>
    obtain ⟨t, first, ⟨r, responds⟩ | still⟩ := inv.responds_or_stillWaits waits guard (Nat.zero_lt_of_lt enough)
    · exact ⟨1, t, r, Nat.succ_pos _, ⟨t, first, rfl⟩, responds⟩
    · obtain ⟨inv', waits', params, more, -, answers⟩ := still
      obtain ⟨k, u, r, le, run, responds⟩ := ih inv' waits' (params ▸ guard) (by omega) (by rw [params]; omega)
      exact ⟨k + 1, u, r, Nat.succ_le_succ le, ⟨t, first, run⟩, responds⟩

end

end Sys2Proof.Machine
end

section
/-! The obligations on NEXT's results, its label and its end. -/

namespace Sys2Proof.Machine

/-- Settles O32: what NEXT judges is under the mask, and BYPASS draws at its own width. -/
theorem nextResultsStayInRange : Obligations.NextResultsStayInRange := by
  rintro s t r inv rst (⟨rest, accepting⟩ | waits) h answered ok
  · rw [step_of_accepting accepting] at h
    rcases execNext_cases { s with cmds := rest } with ⟨-, k⟩ | ⟨-, -, k⟩ | ⟨-, configured, k⟩ <;>
      obtain rfl := Host.Outcome.next.inj (k.symm.trans h)
    · obtain rfl := Phase.respond.inj answered
      cases ok
    · obtain rfl := Phase.respond.inj answered
      cases ok
    · exact ⟨nextByMode_le_rangeMax (s := { s with cmds := rest }) inv.regs configured answered ok, inv.regs.range configured⟩
  · obtain ⟨-, w, rest, -, rfl⟩ := takeAnswer_of_step rst waits h
    obtain ⟨configured, -, draws⟩ := inv.waiting waits
    exact ⟨takeAnswer_le_rangeMax (s := { s with answers := rest }) inv.regs configured (draws.imp_right And.left) answered ok,
      inv.regs.range configured⟩

/-- Settles O33: under every label NEXT accepts the first candidate. -/
theorem strategyLabelIsImmaterial : Obligations.StrategyLabelIsImmaterial := by
  rintro s t m m' buffered buffered' exact rst (⟨rest, accepting⟩ | waits) unfaulted configured h
  · rw [step_of_accepting (s := relabel m s) accepting,
      exec_next_of_buffered (s := { relabel m s with cmds := rest }) unfaulted configured buffered] at h
    rw [step_of_accepting (s := relabel m' s) accepting,
      exec_next_of_buffered (s := { relabel m' s with cmds := rest }) unfaulted configured buffered', ← Host.Outcome.next.inj h]
    exact congrArg _ (nextBuffered_relabel (s := startNext { s with cmds := rest }) buffered buffered' exact)
  · obtain ⟨pending, w, rest, answered, rfl⟩ := takeAnswer_of_step (s := relabel m s) rst waits h
    rw [step_srcwait (s := relabel m' s) rst waits pending answered]
    exact congrArg _ (takeAnswer_relabel (s := { s with answers := rest }) buffered buffered' exact w)

/-- Settles O35: each answer that gives no result counts an extraction, and the guard bounds these. -/
theorem guardedNextEnds : Obligations.GuardedNextEnds := by
  rintro s inv rst guard (⟨rest, accepting⟩ | waits) enough
  · obtain ⟨-, idle, c, port, decoded⟩ := accepting
    obtain ⟨t, executed⟩ := exec_answers_next .next { s with cmds := rest }
    have accepted := (acceptCommand_of_decode decoded).trans executed
    have first := (step_idle rst idle port).trans accepted
    have inv' := step_inv inv first
    have pins := acceptCommand_samePins accepted
    rcases inv'.waits_or_responds (acceptCommand_not_idle accepted) with waits | ⟨r, responds⟩
    · obtain ⟨k, u, r, le, run, responds⟩ := inv'.exists_reaches_respond (n := s.params.guardLimitPred) waits
        (pins.params ▸ guard) (pins.answers ▸ enough) (pins.params ▸ Nat.add_le_add_right (Nat.le_add_left _ _) 1)
      exact ⟨k + 1, u, r, Nat.succ_le_succ le, ⟨t, first, run⟩, responds⟩
    · exact ⟨1, t, r, Nat.succ_pos _, ⟨t, first, rfl⟩, responds⟩
  · obtain ⟨k, t, r, le, run, responds⟩ := inv.exists_reaches_respond (n := s.params.guardLimitPred) waits guard enough
      (Nat.add_le_add_right (Nat.le_add_left _ _) 1)
    exact ⟨k, t, r, Nat.le_succ_of_le le, run, responds⟩

end Sys2Proof.Machine
end

section
/-! SUPPORT. The register views field by field, and RDREG by what its index names (10_state R31, R32; 43_control R201 to R203). -/

namespace Sys2Proof.Machine

/-! ### The views -/

/-- A field keeps its value when a word is placed below it; its place moves up by that word's width. -/
theorem extractLsb'_append_above {m n start len : Nat} {hi : BitVec m} {lo : BitVec n} {field : BitVec len}
    (h : hi.extractLsb' start len = field) : (hi ++ lo).extractLsb' (start + n) len = field := by
  rw [BitVec.extractLsb'_append_eq_of_le (Nat.le_add_left n start), Nat.add_sub_cancel, h]

/-- `CONFIG` by 10_state R31's bit positions, the gaps included: each field is the lowest one above those listed before it. -/
theorem configView_fields (r : Regs) :
    (configView r).extractLsb' 0 8 = r.bitCount ∧ (configView r).extractLsb' 8 8 = r.excess ∧
    (configView r).extractLsb' 16 3 = modeCode r.mode ∧ (configView r).extractLsb' 19 1 = 0 ∧
    (configView r).extractLsb' 20 2 = widthCode r.wsel ∧ (configView r).extractLsb' 22 2 = 0 ∧
    (configView r).extractLsb' 24 1 = BitVec.ofBool r.cfgValid ∧ (configView r).extractLsb' 25 39 = 0 := by
  have lowest := @BitVec.extractLsb'_append_eq_right
  have above := @extractLsb'_append_above
  exact ⟨lowest, above lowest, above (above lowest), above (above (above lowest)), above (above (above (above lowest))),
    above (above (above (above (above lowest)))), above (above (above (above (above (above lowest))))),
    above (above (above (above (above (above BitVec.extractLsb'_append_eq_left)))))⟩

/-- `STATUS` by 10_state R32's bit position. -/
theorem statusView_fields (r : Regs) :
    (statusView r).extractLsb' 0 1 = BitVec.ofBool r.fault ∧ (statusView r).extractLsb' 1 63 = 0 :=
  ⟨BitVec.extractLsb'_append_eq_right, BitVec.extractLsb'_append_eq_left⟩

/-! ### RDREG -/

section
variable {i : Word}

theorem readRegister_eq_none (above : 4 < i.toNat) (r : Regs) : readRegister i r = none := by
  obtain ⟨k, index⟩ := Nat.exists_eq_add_of_le' above
  simp only [readRegister, index]

variable {s : State}

theorem exec_rdreg_of_some {v : Word} (named : readRegister i s.regs = some v) :
    exec (.rdreg i) s = .next (respond .ok v 0 s) := by
  simp only [exec, execRdreg, named]

theorem exec_rdreg_of_none (unnamed : readRegister i s.regs = none) :
    exec (.rdreg i) s = .next (respondError .illegalCmd s) := by
  simp only [exec, execRdreg, unnamed]

end

end Sys2Proof.Machine
end

section
/-! The obligations on NOP and RDREG. -/

namespace Sys2Proof.Machine

/-- Settles O16: the five registers by the index map, the two views by their fields, and no register above 4. -/
theorem rdregReadsTheNamedRegister : Obligations.RdregReadsTheNamedRegister := fun s =>
  ⟨exec_rdreg_of_some rfl, exec_rdreg_of_some rfl, exec_rdreg_of_some rfl,
    ⟨configView s.regs, exec_rdreg_of_some rfl, configView_fields s.regs⟩,
    ⟨statusView s.regs, exec_rdreg_of_some rfl, statusView_fields s.regs⟩,
    fun _ above => exec_rdreg_of_none (readRegister_eq_none above s.regs)⟩

/-- Settles O15: NOP's byte takes any operand, and its meaning is this one response. -/
theorem nopAnswersOk : Obligations.NopAnswersOk :=
  ⟨fun _ => decode_of_opcodeByte (i := .nop) rfl (.inr (.inl rfl)), fun _ => rfl⟩

end Sys2Proof.Machine
end

section
/-! SUPPORT. Two engines side by side (45_range_mapping R230; 10_state R34, R36, R37): whatever the engine does to two states that
agree on what it reads leaves them in agreement, phase by phase within a step too. -/

namespace Sys2Proof.Machine

/-- Since they held `old` and `old'`, two records have grown by the same entries. -/
def GrewAlike {α : Type} (old old' new new' : List α) : Prop :=
  ∃ entries, new = old ++ entries ∧ new' = old' ++ entries

theorem GrewAlike.refl {α : Type} (old old' : List α) : GrewAlike old old' old old' := ⟨[], by simp⟩

theorem GrewAlike.snoc {α : Type} {old old' new new' : List α} (h : GrewAlike old old' new new') (x : α) :
    GrewAlike old old' (new ++ [x]) (new' ++ [x]) := by
  obtain ⟨entries, rfl, rfl⟩ := h
  exact ⟨entries ++ [x], by simp⟩

/-- The phases of a NEXT that has not answered: only in these is ITER still read (42_config_next R163). -/
def Phase.drawing : Phase → Bool
  | .extract => true
  | .srcwait => true
  | .arbitrate => true
  | .idle => false
  | .respond _ => false

/-- Two runs out of reset, begun in `s₀` and `t₀`, that have come to `s` and `t` with nothing to tell them apart: the view, and
what a phase within a step reads besides, ITER while a NEXT draws and CAND in ARBITRATE. -/
structure InStep (s₀ t₀ s t : State) : Prop where
  regs : s.regs = t.regs
  phase : s.phase = t.phase
  srcPending : s.srcPending = t.srcPending
  params : s.params = t.params
  rst : s.rst = false
  rst' : t.rst = false
  rspReady : s.rspReady = t.rspReady
  cmds : s.cmds = t.cmds
  answers : s.answers = t.answers
  iter : s.phase.drawing = true → s.iter = t.iter
  cand : s.phase = .arbitrate → s.cand = t.cand
  taken : GrewAlike s₀.taken t₀.taken s.taken t.taken
  requests : GrewAlike s₀.requests t₀.requests s.requests t.requests

/-- Outcomes that agree: where one run has a next state, so has the other, and the two stay in step. -/
def StayInStep (s₀ t₀ : State) (o o' : Host.Outcome State Fault Refusal) : Prop :=
  ∀ s', o = .next s' → ∃ t', o' = .next t' ∧ InStep s₀ t₀ s' t'

theorem InStep.stay {s₀ t₀ s' t' : State} (h : InStep s₀ t₀ s' t') : StayInStep s₀ t₀ (.next s') (.next t') :=
  fun _ k => ⟨t', rfl, Host.Outcome.next.inj k ▸ h⟩

/-- Where a step rests, the view is all it can depend on. -/
theorem State.Inv.inStep {s t : State} (inv : s.Inv) (rst : s.rst = false) (same : SameView s t) : InStep s t s t := by
  obtain ⟨regs, phase, srcPending, params, rst', rspReady, cmds, answers, iter⟩ := same
  refine ⟨regs, phase, srcPending, params, rst, rst'.symm.trans rst, rspReady, cmds, answers, fun drawing => ?_,
    fun h => absurd h inv.notArbitrate, .refl _ _, .refl _ _⟩
  cases h : s.phase with
  | extract => exact absurd h inv.notExtract
  | arbitrate => exact absurd h inv.notArbitrate
  | srcwait => exact iter h
  | idle | respond => simp [h, Phase.drawing] at drawing

section
variable {s₀ t₀ s t : State} (h : InStep s₀ t₀ s t)
include h

theorem InStep.sameView : SameView s t :=
  ⟨h.regs, h.phase, h.srcPending, h.params, h.rst.trans h.rst'.symm, h.rspReady, h.cmds, h.answers,
    fun waits => h.iter (congrArg Phase.drawing waits)⟩

/-! ### The operations -/

theorem InStep.respond (st : Status) (d : Word) (a : Byte) : InStep s₀ t₀ (respond st d a s) (respond st d a t) :=
  { h with phase := rfl, iter := nofun, cand := nofun }

theorem InStep.retire (st : Status) (d : Word) (a : Byte) : InStep s₀ t₀ (retire st d a s) (retire st d a t) :=
  { h with phase := rfl, iter := nofun, cand := nofun }

theorem InStep.raiseCorrupt : InStep s₀ t₀ (raiseCorrupt s) (raiseCorrupt t) :=
  { h with regs := by simp [h.regs], phase := rfl, iter := nofun, cand := nofun }

theorem InStep.issueRequest (iter : s.iter = t.iter) : InStep s₀ t₀ (issueRequest s) (issueRequest t) :=
  { h with
    srcPending := rfl, phase := rfl, iter := fun _ => iter, cand := nofun
    requests := by simpa [h.regs] using h.requests.snoc (srcWidth s.regs) }

theorem InStep.deliver (r : Response) : InStep s₀ t₀ (deliver r s) (deliver r t) :=
  { h with phase := rfl, iter := nofun, cand := nofun, taken := h.taken.snoc r }

/-- A NEXT that starts counts from 0, whatever the one before it counted (10_state R34). -/
theorem InStep.startNext : InStep s₀ t₀ (startNext s) (startNext t) :=
  { h with iter := fun _ => rfl }

theorem InStep.latchAnswer (w : Word) : InStep s₀ t₀ (latchAnswer w s) (latchAnswer w t) :=
  { h with srcPending := rfl }

theorem InStep.configure (w : Width) (r : Word) : InStep s₀ t₀ (configure w r s) (configure w r t) := by
  rcases configure_cases w r s with ⟨faulted, k⟩ | ⟨unfaulted, wide, k⟩ | ⟨unfaulted, fits, k⟩ <;> rw [k]
  · rw [configure_of_faulted (h.regs ▸ faulted)]
    exact h.respond _ _ _
  · rw [configure_of_wide (h.regs ▸ unfaulted) wide]
    exact h.respond _ _ _
  · rw [configure_of_fits (h.regs ▸ unfaulted) fits, ← h.regs]
    exact { h with regs := rfl, phase := rfl, iter := nofun, cand := nofun }

/-! ### The phases of a NEXT -/

/-- A refill reads the word just latched, so CAND is the same after it (41_buffer R133). -/
theorem InStep.refill (iter : s.iter = t.iter) (latch : s.wordLatch = t.wordLatch) :
    InStep s₀ t₀ { finishRefill s with phase := .arbitrate } { finishRefill t with phase := .arbitrate } :=
  { h with
    regs := by simp [h.regs, latch], phase := rfl, iter := fun _ => iter
    cand := fun _ => by simp [h.regs, latch] }

theorem InStep.extractPhase (iter : s.iter = t.iter) : InStep s₀ t₀ (extractPhase s) (extractPhase t) := by
  unfold Machine.extractPhase
  rw [← h.regs]
  split
  · exact { h with
      regs := by simp [h.regs], phase := rfl, iter := fun _ => iter
      cand := fun _ => by simp [h.regs] }
  · exact h.issueRequest iter

theorem InStep.arbitratePhase (phase : s.phase = .arbitrate) : InStep s₀ t₀ (arbitratePhase s) (arbitratePhase t) := by
  have iter : s.iter = t.iter := h.iter (congrArg Phase.drawing phase)
  have cand : s.cand = t.cand := h.cand phase
  have counted : InStep s₀ t₀ { s with iter := s.iter + 1 } { t with iter := t.iter + 1 } :=
    { h with iter := fun _ => congrArg (· + 1) iter }
  unfold Machine.arbitratePhase arbitrateCounted
  simp only [← h.regs, ← cand, ← iter, ← h.params] at counted ⊢
  split_ifs
  · exact counted.retire _ _ _
  · exact counted.raiseCorrupt
  · exact { counted with phase := rfl, iter := fun _ => rfl, cand := nofun }

end

theorem InStep.runPhases (n : Nat) {s₀ t₀ s t : State} (h : InStep s₀ t₀ s t) :
    InStep s₀ t₀ (runPhases n s) (runPhases n t) := by
  induction n generalizing s t with
  | zero => exact h
  | succ n ih =>
    cases phase : s.phase with
    | extract =>
      rw [runPhases_extract phase, runPhases_extract (h.phase ▸ phase)]
      exact ih (h.extractPhase (h.iter (congrArg Phase.drawing phase)))
    | arbitrate =>
      rw [runPhases_arbitrate phase, runPhases_arbitrate (h.phase ▸ phase)]
      exact ih (h.arbitratePhase phase)
    | idle => rwa [runPhases_idle phase, runPhases_idle (h.phase ▸ phase)]
    | srcwait => rwa [runPhases_srcwait phase, runPhases_srcwait (h.phase ▸ phase)]
    | respond r => rwa [runPhases_respond phase, runPhases_respond (h.phase ▸ phase)]

section
variable {s₀ t₀ s t : State} (h : InStep s₀ t₀ s t)
include h

theorem InStep.nextBuffered (iter : s.iter = t.iter) : InStep s₀ t₀ (nextBuffered s) (nextBuffered t) :=
  InStep.runPhases phaseFuel { h with phase := rfl, iter := fun _ => iter, cand := nofun }

theorem InStep.nextByMode (iter : s.iter = t.iter) : InStep s₀ t₀ (nextByMode s) (nextByMode t) := by
  unfold Machine.nextByMode
  rw [← h.regs]
  cases s.regs.mode with
  | const => exact h.respond _ _ _
  | bypass => exact h.issueRequest iter
  | any | pot | popot => exact h.nextBuffered iter
  | none => exact h.respond _ _ _

/-- A taken answer is judged by the word and the registers, not by what WORD_LATCH held (10_state R36). -/
theorem InStep.takeAnswer (waits : s.phase = .srcwait) (w : Word) :
    InStep s₀ t₀ (takeAnswer w s) (takeAnswer w t) := by
  have latched := h.latchAnswer w
  by_cases mode : s.regs.mode = .bypass
  · rw [takeAnswer_of_bypass mode, takeAnswer_of_bypass (h.regs ▸ mode), ← h.regs]
    exact latched.retire _ _ _
  · rw [takeAnswer_of_not_bypass mode, takeAnswer_of_not_bypass (h.regs ▸ mode)]
    exact (latched.refill (h.iter (congrArg Phase.drawing waits)) (by simp [h.regs])).runPhases phaseFuel

/-! ### The step -/

theorem InStep.execNext : StayInStep s₀ t₀ (execNext s) (execNext t) := by
  rcases execNext_cases s with ⟨faulted, k⟩ | ⟨unfaulted, unconfigured, k⟩ | ⟨unfaulted, configured, k⟩ <;> rw [k]
  · rw [execNext_of_faulted (h.regs ▸ faulted)]
    exact (h.respond _ _ _).stay
  · rw [execNext_of_unconfigured (h.regs ▸ unfaulted) (h.regs ▸ unconfigured)]
    exact (h.respond _ _ _).stay
  · rw [execNext_of_configured (h.regs ▸ unfaulted) (h.regs ▸ configured)]
    exact (h.startNext.nextByMode rfl).stay

theorem InStep.exec (i : Instr) : StayInStep s₀ t₀ (exec i s) (exec i t) := by
  cases i with
  | nop => exact (h.respond _ _ _).stay
  | cfgU8 r => exact (h.configure .w8 r).stay
  | cfgU16 r => exact (h.configure .w16 r).stay
  | cfgU32 r => exact (h.configure .w32 r).stay
  | cfgU64 r => exact (h.configure .w64 r).stay
  | next => exact h.execNext
  | lookup x => exact (h.respond _ _ _).stay
  | ispow2 x => exact (h.respond _ _ _).stay
  | rdreg n =>
    cases named : readRegister n s.regs with
    | some v =>
      rw [exec_rdreg_of_some named, exec_rdreg_of_some (h.regs ▸ named)]
      exact (h.respond _ _ _).stay
    | none =>
      rw [exec_rdreg_of_none named, exec_rdreg_of_none (h.regs ▸ named)]
      exact (h.respond _ _ _).stay

theorem InStep.acceptCommand (c : Command) : StayInStep s₀ t₀ (acceptCommand c s) (acceptCommand c t) := by
  unfold Machine.acceptCommand
  cases decode c with
  | ok i => exact h.exec i
  | error e => exact (h.respond _ _ _).stay

/-- The same commands, answers and pins let both runs make the same step. -/
theorem InStep.step : StayInStep s₀ t₀ (step s) (step t) := by
  intro s' first
  rcases step_cases first with ⟨reset, -⟩ | ⟨-, idle, c, rest, port, accepted⟩ | ⟨-, waits, pending, w, rest, answered, rfl⟩ |
    ⟨-, ⟨r, responds, rfl⟩, ready⟩ | ⟨-, running, rfl⟩
  · simp [h.rst] at reset
  · rw [step_idle h.rst' (h.phase ▸ idle) (h.cmds ▸ port)]
    have consumed : InStep s₀ t₀ { s with cmds := rest } { t with cmds := rest } := { h with cmds := rfl }
    exact consumed.acceptCommand c s' accepted
  · rw [step_srcwait h.rst' (h.phase ▸ waits) (h.srcPending ▸ pending) (h.answers ▸ answered)]
    have drawn : InStep s₀ t₀ { s with answers := rest } { t with answers := rest } := { h with answers := rfl }
    exact ⟨_, rfl, drawn.takeAnswer waits w⟩
  · rw [step_respond h.rst' (h.phase ▸ responds) (h.rspReady ▸ ready)]
    exact ⟨_, rfl, h.deliver r⟩
  · rw [step_running h.rst' (h.phase ▸ running)]
    exact ⟨_, rfl, h.runPhases phaseFuel⟩

end

theorem InStep.reaches (n : Nat) {s₀ t₀ s t s' : State} (h : InStep s₀ t₀ s t) (run : Reaches n s s') :
    ∃ t', Reaches n t t' ∧ InStep s₀ t₀ s' t' := by
  induction n generalizing s t with
  | zero => exact ⟨t, rfl, run ▸ h⟩
  | succ n ih =>
    obtain ⟨u, first, later⟩ := run
    obtain ⟨v, first', together⟩ := h.step u first
    obtain ⟨t', later', arrived⟩ := ih together later
    exact ⟨t', ⟨v, first', later'⟩, arrived⟩

end Sys2Proof.Machine
end

section
/-! The obligation on equal views. -/

namespace Sys2Proof.Machine

/-- Settles O48: the two runs stay in step, by induction on their length. -/
theorem equalViewsReplayEqually : Obligations.EqualViewsReplayEqually := by
  intro n s t s' inv rst same run
  obtain ⟨t', run', arrived⟩ := (inv.inStep rst same).reaches n run
  obtain ⟨responses, taken, taken'⟩ := arrived.taken
  obtain ⟨requests, issued, issued'⟩ := arrived.requests
  exact ⟨t', responses, requests, run', arrived.sameView, taken, taken', issued, issued'⟩

end Sys2Proof.Machine
end

section
/-! SUPPORT. The host's mapping (45_range_mapping R221 to R227): when a request makes a generator, how far its values reach, and
the value of the `N`-bit adder. -/

namespace Sys2Proof.Machine

/-! ### The bounds of the type -/

theorem two_pow_bits (w : Width) : (2 : Int) ^ w.bits = 2 * 2 ^ (w.bits - 1) := by cases w <;> rfl

section
variable {q : Request}

theorem Request.wf_iff : q.wf = true ↔
    q.typeMin ≤ q.lower ∧ q.lower ≤ q.typeMax ∧ q.typeMin ≤ q.upper ∧ q.upper ≤ q.typeMax := by
  simp [Request.wf, and_assoc]

/-- A type of either sign has `2 ^ N` values (45_range_mapping R221). -/
theorem Request.typeMax_sub_typeMin (q : Request) : q.typeMax - q.typeMin = 2 ^ q.width.bits - 1 := by
  have twice := two_pow_bits q.width
  unfold Request.typeMax Request.typeMin
  split_ifs <;> omega

/-! ### The effective bounds -/

theorem Boundary.shifts_nonneg (k : Boundary) : 0 ≤ k.lowerShift ∧ 0 ≤ k.upperShift := by cases k <;> decide

/-- Open ends only narrow the range, so the effective bounds do not leave the type (45_range_mapping R222). -/
theorem Request.eff_in_type (wf : q.wf = true) : q.typeMin ≤ q.loEff ∧ q.hiEff ≤ q.typeMax := by
  obtain ⟨lower, -, -, upper⟩ := Request.wf_iff.1 wf
  obtain ⟨lowerShift, upperShift⟩ := q.kind.shifts_nonneg
  unfold Request.loEff Request.hiEff
  omega

/-- The effective range is empty in R223's cases (45_range_mapping R222, R223). -/
theorem Request.hiEff_lt_loEff_iff : q.hiEff < q.loEff ↔
    (q.kind = .cc ∧ q.lower > q.upper) ∨ ((q.kind = .co ∨ q.kind = .oc) ∧ q.lower ≥ q.upper) ∨
    (q.kind = .oo ∧ q.upper - q.lower ≤ 1) := by
  unfold Request.loEff Request.hiEff
  cases q.kind with
  | cc | co | oc => simp [Boundary.lowerShift, Boundary.upperShift]
  | oo =>
    simp only [Boundary.lowerShift, Boundary.upperShift, reduceCtorEq, false_and, or_self, false_or, true_and]
    omega

/-- Between the effective bounds a value keeps to the bounds asked for, open ends excluded (45_range_mapping R222, R227). -/
theorem Request.bounds_of_eff {n : Int} (lower : q.loEff ≤ n) (upper : n ≤ q.hiEff) :
    (q.kind = .cc → q.lower ≤ n ∧ n ≤ q.upper) ∧ (q.kind = .co → q.lower ≤ n ∧ n < q.upper) ∧
    (q.kind = .oc → q.lower < n ∧ n ≤ q.upper) ∧ (q.kind = .oo → q.lower < n ∧ n < q.upper) := by
  unfold Request.loEff at lower
  unfold Request.hiEff at upper
  refine ⟨fun kind => ?_, fun kind => ?_, fun kind => ?_, fun kind => ?_⟩ <;>
    simp only [kind, Boundary.lowerShift, Boundary.upperShift] at lower upper <;> omega

/-! ### The generator -/

theorem makeGenerator_eq_error_iff : makeGenerator q = .error .invalidRange ↔ q.hiEff < q.loEff := by
  unfold makeGenerator
  split_ifs with empty <;> simp [empty]

theorem makeGenerator_eq_ok_iff {g : Generator} : makeGenerator q = .ok g ↔
    q.loEff ≤ q.hiEff ∧ g = ⟨q.loEff, (q.hiEff - q.loEff).toNat, q.width, q.signed⟩ := by
  unfold makeGenerator
  split_ifs with empty
  · simp [Int.not_le.2 empty]
  · simp [Int.not_lt.1 empty, eq_comm]

section
variable {g : Generator} (made : makeGenerator q = .ok g)
include made

theorem coe_rangeMax_of_makeGenerator : (g.rangeMax : Int) = q.hiEff - q.loEff := by
  obtain ⟨nonempty, rfl⟩ := makeGenerator_eq_ok_iff.1 made
  exact Int.toNat_of_nonneg (Int.sub_nonneg.2 nonempty)

/-- Every result in the range maps between the effective bounds (45_range_mapping R225). -/
theorem value_mem_of_makeGenerator {d : Word} (range : d.toNat ≤ g.rangeMax) : q.loEff ≤ g.value d ∧ g.value d ≤ q.hiEff := by
  have reach := coe_rangeMax_of_makeGenerator made
  obtain ⟨-, rfl⟩ := makeGenerator_eq_ok_iff.1 made
  simp only [Generator.value]
  omega

theorem typed_of_makeGenerator : g.width = q.width ∧ g.signed = q.signed := by
  obtain ⟨-, rfl⟩ := makeGenerator_eq_ok_iff.1 made
  exact ⟨rfl, rfl⟩

variable (wf : q.wf = true)
include wf

/-- `range_max` fits in `N` bits (45_range_mapping R224). -/
theorem rangeMax_le_of_makeGenerator : g.rangeMax ≤ 2 ^ q.width.bits - 1 := by
  have range := coe_rangeMax_of_makeGenerator made
  obtain ⟨lower, upper⟩ := Request.eff_in_type wf
  have type := q.typeMax_sub_typeMin
  zify [Nat.one_le_two_pow (n := q.width.bits)]
  omega

/-- The operand of the host's CFG is `range_max` itself (45_range_mapping R224). -/
theorem toNat_ofNat_rangeMax : (BitVec.ofNat 64 g.rangeMax).toNat = g.rangeMax := by
  have fits := rangeMax_le_of_makeGenerator made wf
  have word : 2 ^ q.width.bits ≤ 2 ^ 64 := by cases q.width <;> decide
  rw [BitVec.toNat_ofNat, Nat.mod_eq_of_lt]
  omega

end

end

/-! ### The `N`-bit adder -/

section
variable {g : Generator} {d : Word}

/-- The adder's sum is the value modulo `2 ^ N`, read as a value of the type (45_range_mapping R225). -/
theorem Generator.hardwareValue_eq_ite (g : Generator) (d : Word) : g.hardwareValue d =
    if g.signed && 2 ^ g.width.bits ≤ 2 * (g.value d % 2 ^ g.width.bits) then g.value d % 2 ^ g.width.bits - 2 ^ g.width.bits
    else g.value d % 2 ^ g.width.bits := by
  simp only [Generator.hardwareValue, Generator.value, Int.emod_add_emod]
  rfl

/-- Reading modulo `2 ^ N` loses nothing of an unsigned value. -/
theorem Generator.hardwareValue_of_unsigned (unsigned : g.signed = false) (nonneg : 0 ≤ g.value d)
    (small : g.value d < 2 ^ g.width.bits) : g.hardwareValue d = g.value d := by
  rw [g.hardwareValue_eq_ite, unsigned, Int.emod_eq_of_lt nonneg small]
  rfl

/-- Nor of a signed one: the upper half of the sums stands for the negative values. -/
theorem Generator.hardwareValue_of_signed (signed : g.signed = true) (lower : -2 ^ (g.width.bits - 1) ≤ g.value d)
    (upper : g.value d < 2 ^ (g.width.bits - 1)) : g.hardwareValue d = g.value d := by
  have twice := two_pow_bits g.width
  rw [g.hardwareValue_eq_ite, signed, Bool.true_and]
  simp only [decide_eq_true_eq]
  rcases lt_or_ge (g.value d) 0 with negative | nonneg
  · rw [Int.emod_eq_add_self_emod, Int.emod_eq_of_lt (by omega) (by omega), if_pos (by omega), Int.add_sub_cancel]
  · rw [Int.emod_eq_of_lt nonneg (by omega), if_neg (by omega)]

/-- The adder gives every value of the request's type (45_range_mapping R225). -/
theorem Generator.hardwareValue_eq_value {q : Request} (made : makeGenerator q = .ok g) (lower : q.typeMin ≤ g.value d)
    (upper : g.value d ≤ q.typeMax) : g.hardwareValue d = g.value d := by
  obtain ⟨width, signed⟩ := typed_of_makeGenerator made
  unfold Request.typeMin at lower
  unfold Request.typeMax at upper
  rw [← width, ← signed] at lower upper
  cases sign : g.signed <;> rw [sign] at lower upper
  · exact hardwareValue_of_unsigned sign lower (Int.lt_of_le_sub_one upper)
  · exact hardwareValue_of_signed sign lower (Int.lt_of_le_sub_one upper)

end

end Sys2Proof.Machine
end

section
/-! The obligations on the host contract. -/

namespace Sys2Proof.Machine

/-- Settles O57: the effective bounds lie in a type of `2 ^ N` values, so CFG does not find their distance too wide. -/
theorem hostRangesFitTheirWidth : Obligations.HostRangesFitTheirWidth := by
  intro q g wf made
  have fits := rangeMax_le_of_makeGenerator made wf
  have operand := toNat_ofNat_rangeMax made wf
  obtain ⟨width, -⟩ := typed_of_makeGenerator made
  refine ⟨coe_rangeMax_of_makeGenerator made, fits, width ▸ decode_cfgCommand g.width _, fun s unfaulted => ?_⟩
  rw [exec_cfgInstr, configure_of_fits unfaulted (operand.trans_le fits)]
  exact ⟨_, _, rfl, rfl, operand, rfl⟩

/-- Settles O58: the value is between the effective bounds, so in the type, whose values the adder does not confuse. -/
theorem hostAdderAgrees : Obligations.HostAdderAgrees := by
  intro q g d wf made range
  obtain ⟨lower, upper⟩ := value_mem_of_makeGenerator made range
  obtain ⟨least, greatest⟩ := Request.eff_in_type wf
  have typeMin := least.trans lower
  have typeMax := upper.trans greatest
  exact ⟨Generator.hardwareValue_eq_value made typeMin typeMax, lower, upper, typeMin, typeMax⟩

/-- Settles O59: an OK result is at most RANGE_MAX (O32), so its value is between the effective bounds. -/
theorem requestsNeverLeaveTheirBounds : Obligations.RequestsNeverLeaveTheirBounds := by
  intro q g s t r wf made inv rst configured rangeMax wsel source h answered ok
  obtain ⟨range, -⟩ := nextResultsStayInRange s t r inv rst source h answered ok
  rw [rangeMax, toNat_ofNat_rangeMax made wf] at range
  obtain ⟨lower, upper⟩ := value_mem_of_makeGenerator made range
  exact Request.bounds_of_eff lower upper

/-- Settles O56: making a generator tests the effective bounds, and each boundary kind says what that is of the bounds. -/
theorem hostRejectsExactlyEmptyRanges : Obligations.HostRejectsExactlyEmptyRanges := fun _ =>
  ⟨makeGenerator_eq_error_iff, makeGenerator_eq_error_iff.trans Request.hiEff_lt_loEff_iff⟩

end Sys2Proof.Machine
end

section
/-! Saving and restoring the BitSource (45_range_mapping R231): a CFG of the range and width an engine already has, and the
obligation. -/

namespace Sys2Proof.Machine

/-- Everything but RESIDUAL and FAULT is a function of the range and the width (10_state R33, 42_config_next R146). -/
theorem Regs.Inv.configuredRegs_eq {r old : Regs} (inv : r.Inv) (configured : r.cfgValid = true) (empty : r.residual = 0)
    (fault : old.fault = r.fault) : configuredRegs r.wsel r.rangeMax old = r := by
  rw [configuredRegs, ← inv.mode configured, ← inv.excess configured, ← inv.count configured, ← inv.mask configured,
    BitVec.ofNat_toNat, BitVec.ofNat_toNat, BitVec.setWidth_eq, BitVec.setWidth_eq, ← empty, ← configured, fault]

/-- Settles O49: the range of a configured engine fits, and CFG gives the registers it has. -/
theorem saveRestoreWithTheSameCfg : Obligations.SaveRestoreWithTheSameCfg := by
  intro s u v saved inv configured unfaulted empty unfaulted' save restore
  obtain ⟨-, rfl⟩ := saveSource_eq_some.1 save
  obtain ⟨-, rfl⟩ := restoreSource_eq_some.1 restore
  refine ⟨_, exec_cfgInstr _ _ _, ?_⟩
  rw [configure_of_fits (s := { u with answers := s.answers }) unfaulted' (inv.regs.range configured)]
  exact ⟨inv.regs.configuredRegs_eq configured empty (unfaulted'.trans unfaulted.symm), rfl⟩

end Sys2Proof.Machine
end

section
/-! SUPPORT. Where errors come from (60_exceptions R251 to R258): a refused command touches nothing, and CORRUPT_STATE is raised by
the guard alone, with FAULT, at the first extraction that reaches GUARD_LIMIT (42_config_next R163, R165). -/

namespace Sys2Proof.Machine

/-! ### What can become of a command -/

/-- From `s` to `t` FAULT stays, and no error is answered. -/
structure Quiet (s t : State) : Prop where
  fault : t.regs.fault = s.regs.fault
  ok : ∀ r, t.phase = .respond r → r.status = .ok

/-- From `s` to `t` a command is refused: an error other than CORRUPT_STATE, and nothing else (60_exceptions R257). -/
structure Refused (s t : State) : Prop where
  regs : t.regs = s.regs
  requests : t.requests = s.requests
  answers : t.answers = s.answers
  answered : ∃ st, st ≠ .corruptState ∧ t.phase = .respond ⟨st, 0, 0⟩

/-- From `s` to `t` the guard raises CORRUPT_STATE, where `n` extractions had been counted before (60_exceptions R254). -/
structure RaisedAfter (n : Nat) (s t : State) : Prop where
  mode : s.regs.mode = .any
  guard : s.params.debugGuard = true
  regs : t.regs = { s.regs with fault := true, residual := t.regs.residual }
  answered : t.phase = .respond ⟨.corruptState, 0, 0⟩
  iter : t.iter = max (n + 1) s.params.guardLimit

theorem RaisedAfter.fault {n : Nat} {s t : State} (h : RaisedAfter n s t) : t.regs.fault = true := by
  rw [h.regs]

section
variable {n : Nat} {s t u : State}

theorem Quiet.after (h : Quiet u t) (fault : u.regs.fault = s.regs.fault) : Quiet s t := ⟨h.fault.trans fault, h.ok⟩

/-- What comes first may write RESIDUAL only. -/
theorem RaisedAfter.after (h : RaisedAfter n u t) (regs : u.regs = { s.regs with residual := u.regs.residual })
    (params : u.params = s.params) : RaisedAfter n s t := by
  have mode : u.regs.mode = s.regs.mode := by rw [regs]
  refine ⟨mode ▸ h.mode, params ▸ h.guard, ?_, h.answered, params ▸ h.iter⟩
  have written := h.regs
  rwa [regs] at written

theorem quiet_or_raised_after (h : Quiet u t ∨ RaisedAfter n u t) (regs : u.regs = { s.regs with residual := u.regs.residual })
    (params : u.params = s.params) : Quiet s t ∨ RaisedAfter n s t :=
  h.imp (fun quiet => quiet.after (by rw [regs])) fun raised => raised.after regs params

/-- An extraction below the guard's limit may come first. -/
theorem RaisedAfter.of_silent (h : RaisedAfter (n + 1) s t) (silent : guardFires s.params (n + 1) = false) :
    RaisedAfter n s t := by
  have below : n + 1 < s.params.guardLimit := (guardFires_eq_false_iff.1 silent).resolve_left (by simp [h.guard])
  refine ⟨h.mode, h.guard, h.regs, h.answered, ?_⟩
  rw [h.iter]
  omega

end

/-! ### NEXT -/

theorem quiet_of_ok {s t : State} {r : Response} (fault : t.regs.fault = s.regs.fault) (answered : t.phase = .respond r)
    (ok : r.status = .ok) : Quiet s t :=
  ⟨fault, fun _ responds => Phase.respond.inj (answered.symm.trans responds) ▸ ok⟩

/-- The phases that wait for nobody raise CORRUPT_STATE when the guard fires on a rejected candidate, and answer no other error
(42_config_next R163). -/
theorem runPhases_quiet_or_raised (n : Nat) {s : State} (ok : ∀ r, s.phase = .respond r → r.status = .ok) :
    Quiet s (runPhases n s) ∨ RaisedAfter s.iter s (runPhases n s) := by
  induction n generalizing s with
  | zero => exact .inl ⟨rfl, ok⟩
  | succ n ih =>
    cases phase : s.phase with
    | idle => rw [runPhases_idle phase]; exact .inl ⟨rfl, ok⟩
    | srcwait => rw [runPhases_srcwait phase]; exact .inl ⟨rfl, ok⟩
    | respond r => rw [runPhases_respond phase]; exact .inl ⟨rfl, ok⟩
    | extract =>
      rw [runPhases_extract phase]
      rcases extractPhase_cases s with ⟨-, h⟩ | ⟨-, h⟩ <;> rw [h]
      · exact quiet_or_raised_after (ih nofun) rfl rfl
      · rw [runPhases_srcwait rfl]
        exact .inl ⟨rfl, nofun⟩
    | arbitrate =>
      rw [runPhases_arbitrate phase]
      rcases arbitratePhase_cases s with ⟨-, h⟩ | ⟨rejected, fires, h⟩ | ⟨-, silent, h⟩ <;> rw [h]
      · rw [runPhases_respond rfl]
        exact .inl (quiet_of_ok rfl rfl rfl)
      · obtain ⟨guard, reached⟩ := guardFires_iff.1 fires
        rw [runPhases_respond rfl]
        exact .inr ⟨mode_eq_any_of_not_accepts rejected, guard, rfl, rfl, (max_eq_left reached).symm⟩
      · have later := ih (s := { s with iter := s.iter + 1, phase := .extract }) nofun
        exact (quiet_or_raised_after later rfl rfl).imp_right fun raised => raised.of_silent silent

theorem refused_respondError {s : State} {st : Status} (ne : st ≠ .corruptState) : Refused s (respondError st s) :=
  ⟨rfl, rfl, rfl, st, ne, rfl⟩

/-- A NEXT that starts; MODE = NONE is answered as unconfigured (log 14). -/
theorem nextByMode_outcome (s : State) :
    Refused s (nextByMode s) ∨ Quiet s (nextByMode s) ∨ RaisedAfter s.iter s (nextByMode s) := by
  rcases nextByMode_cases s with ⟨-, h⟩ | ⟨-, h⟩ | ⟨-, h⟩ | ⟨-, h⟩ <;> rw [h]
  · exact .inr (.inl (quiet_of_ok rfl rfl rfl))
  · exact .inr (.inl ⟨rfl, nofun⟩)
  · exact .inr (quiet_or_raised_after (runPhases_quiet_or_raised phaseFuel nofun) rfl rfl)
  · exact .inl (refused_respondError nofun)

theorem takeAnswer_quiet_or_raised (w : Word) (s : State) :
    Quiet s (takeAnswer w s) ∨ RaisedAfter s.iter s (takeAnswer w s) := by
  rcases takeAnswer_cases w s with ⟨-, h⟩ | ⟨-, h⟩ <;> rw [h]
  · exact .inl (quiet_of_ok rfl rfl rfl)
  · exact quiet_or_raised_after (runPhases_quiet_or_raised phaseFuel nofun) rfl rfl

/-! ### The commands -/

theorem configure_refused_or_quiet (w : Width) (r : Word) (s : State) :
    Refused s (configure w r s) ∨ Quiet s (configure w r s) := by
  rcases configure_cases w r s with ⟨-, h⟩ | ⟨-, -, h⟩ | ⟨-, -, h⟩ <;> rw [h]
  · exact .inl (refused_respondError nofun)
  · exact .inl (refused_respondError nofun)
  · exact .inr (quiet_of_ok rfl rfl rfl)

/-- Only NEXT raises CORRUPT_STATE, and it counts its extractions from 0 (10_state R34, 60_exceptions R254). -/
theorem exec_outcome {i : Instr} {s t : State} (h : exec i s = .next t) :
    Refused s t ∨ Quiet s t ∨ i = .next ∧ RaisedAfter 0 s t := by
  have cfg (w : Width) (r : Word) (k : configure w r s = t) : Refused s t ∨ Quiet s t ∨ i = .next ∧ RaisedAfter 0 s t :=
    k ▸ (configure_refused_or_quiet w r s).imp_right .inl
  cases i with
  | nop => exact Host.Outcome.next.inj h ▸ .inr (.inl (quiet_of_ok rfl rfl rfl))
  | cfgU8 r => exact cfg .w8 r (Host.Outcome.next.inj h)
  | cfgU16 r => exact cfg .w16 r (Host.Outcome.next.inj h)
  | cfgU32 r => exact cfg .w32 r (Host.Outcome.next.inj h)
  | cfgU64 r => exact cfg .w64 r (Host.Outcome.next.inj h)
  | lookup x => exact Host.Outcome.next.inj h ▸ .inr (.inl (quiet_of_ok rfl rfl rfl))
  | ispow2 x => exact Host.Outcome.next.inj h ▸ .inr (.inl (quiet_of_ok rfl rfl rfl))
  | next =>
    rcases execNext_cases s with ⟨-, k⟩ | ⟨-, -, k⟩ | ⟨-, -, k⟩ <;> obtain rfl := Host.Outcome.next.inj (k.symm.trans h)
    · exact .inl (refused_respondError nofun)
    · exact .inl (refused_respondError nofun)
    · rcases nextByMode_outcome (startNext s) with refused | drew
      · exact .inl ⟨refused.regs, refused.requests, refused.answers, refused.answered⟩
      · exact .inr ((quiet_or_raised_after drew rfl rfl).imp_right fun raised => ⟨rfl, raised⟩)
  | rdreg n =>
    rcases execRdreg_cases n s with ⟨v, -, k⟩ | ⟨-, k⟩ <;> obtain rfl := Host.Outcome.next.inj (k.symm.trans h)
    · exact .inr (.inl (quiet_of_ok rfl rfl rfl))
    · exact .inl (refused_respondError nofun)

theorem acceptCommand_outcome {c : Command} {s t : State} (h : acceptCommand c s = .next t) :
    Refused s t ∨ Quiet s t ∨ decode c = .ok .next ∧ RaisedAfter 0 s t := by
  rcases acceptCommand_cases c s with ⟨i, decoded, k⟩ | ⟨e, -, k⟩ <;> rw [k] at h
  · exact (exec_outcome h).imp_right fun drew => drew.imp_right fun ⟨next, raised⟩ => ⟨next ▸ decoded, raised⟩
  · exact .inl (Host.Outcome.next.inj h ▸ refused_respondError nofun)

/-! ### The step -/

/-- The step out of `s` draws candidates, with `n` counted so far: for a NEXT on the port none (10_state R34). -/
def DrawsAfter (n : Nat) (s : State) : Prop :=
  (∃ rest, s.Accepting .next rest) ∧ n = 0 ∨
  (s.phase = .srcwait ∨ s.phase = .extract ∨ s.phase = .arbitrate) ∧ n = s.iter

/-- What a step out of reset can have to do with errors. -/
theorem step_outcome {s t : State} (rst : s.rst = false) (h : step s = .next t) :
    Refused s t ∨ Quiet s t ∨ ∃ n, DrawsAfter n s ∧ RaisedAfter n s t := by
  rcases step_cases h with ⟨reset, -⟩ | ⟨-, idle, c, rest, port, accepted⟩ | ⟨-, waits, -, w, rest, -, rfl⟩ |
    ⟨-, ⟨r, -, rfl⟩, -⟩ | ⟨-, running, rfl⟩
  · simp [rst] at reset
  · rcases acceptCommand_outcome accepted with refused | quiet | ⟨decoded, raised⟩
    · exact .inl ⟨refused.regs, refused.requests, refused.answers, refused.answered⟩
    · exact .inr (.inl (quiet.after rfl))
    · exact .inr (.inr ⟨0, .inl ⟨⟨rest, rst, idle, c, port, decoded⟩, rfl⟩, raised.after rfl rfl⟩)
  · exact .inr ((quiet_or_raised_after (takeAnswer_quiet_or_raised w { s with answers := rest }) rfl rfl).imp_right
      fun raised => ⟨s.iter, .inr ⟨.inl waits, rfl⟩, raised⟩)
  · exact .inr (.inl ⟨rfl, nofun⟩)
  · have ok : ∀ r, s.phase = .respond r → r.status = .ok := fun r phase => by simp [phase] at running
    exact .inr ((runPhases_quiet_or_raised phaseFuel ok).imp_right fun raised => ⟨s.iter, .inr ⟨.inr running, rfl⟩, raised⟩)

/-- In the states a run reaches, the guard's limit is still ahead of a step that draws (42_config_next R165). -/
theorem State.Inv.lt_guardLimit {n : Nat} {s : State} (inv : s.Inv) (draws : DrawsAfter n s) (mode : s.regs.mode = .any)
    (guard : s.params.debugGuard = true) : n < s.params.guardLimit := by
  rcases draws with ⟨-, rfl⟩ | ⟨waits | running, rfl⟩
  · exact Nat.succ_pos _
  · exact inv.guarded waits (by rw [mode]; rfl) guard
  · exact absurd running (by simp [inv.notExtract, inv.notArbitrate])

/-- A step never ends in EXTRACT or ARBITRATE, so none starts there (42_config_next R170). -/
theorem State.Inv.accepts_or_waits {n : Nat} {s : State} (inv : s.Inv) (draws : DrawsAfter n s) :
    (∃ rest, s.Accepting .next rest) ∨ s.phase = .srcwait := by
  rcases draws with ⟨accepting, -⟩ | ⟨waits | running, -⟩
  · exact .inl accepting
  · exact .inr waits
  · exact absurd running (by simp [inv.notExtract, inv.notArbitrate])

theorem step_reset {s : State} (rst : s.rst = true) : step s = .next (resetCycle s) := by
  simp [step, rst]

/-- While FAULT is set a command is answered and nothing else happens (60_exceptions R255, R262). -/
theorem acceptCommand_of_faulted {c : Command} {s t : State} (faulted : s.regs.fault = true) (h : acceptCommand c s = .next t) :
    ∃ st d a, t = respond st d a s := by
  rcases acceptCommand_cases c s with ⟨i, -, k⟩ | ⟨e, -, k⟩ <;> rw [k] at h
  · cases executed_of_exec h with
    | configured w r aux cfg unfaulted range => simp [faulted] at unfaulted
    | started next unfaulted configured => simp [faulted] at unfaulted
    | answered st d aux zeros => exact ⟨st, d, aux, rfl⟩
  · exact ⟨.illegalCmd, 0, 0, (Host.Outcome.next.inj h).symm⟩

/-- CFG and NEXT check FAULT first (60_exceptions R255, R258). -/
theorem exec_of_faulted {i : Instr} {s : State} (faulted : s.regs.fault = true)
    (checked : i = .next ∨ ∃ w r, i = cfgInstr w r) : exec i s = .next (respondError .faulted s) := by
  rcases checked with rfl | ⟨w, r, rfl⟩
  · exact execNext_of_faulted faulted
  · rw [exec_cfgInstr, configure_of_faulted faulted]

end Sys2Proof.Machine
end

section
/-! SUPPORT. The output pins out of reset (30_encoding R70, 20_memory R55, R57). -/

namespace Sys2Proof.Machine

section
variable {s : State} (rst : s.rst = false)
include rst

theorem srcReq_eq_srcPending : srcReq s = s.srcPending := by
  simp [srcReq, rst]

theorem cmdReady_iff_idle : cmdReady s = true ↔ s.phase = .idle := by
  simp [cmdReady, rst]

theorem rspValid_iff_responds : rspValid s = true ↔ ∃ r, s.phase = .respond r := by
  cases phase : s.phase <;> simp [rspValid, rspOnPort, rst, phase]

theorem srcW64_eq_ite : srcW64 s =
    if s.srcPending then some (!decide (s.regs.mode = .bypass ∧ s.regs.wsel = .w32)) else none := by
  rw [srcW64, srcReq_eq_srcPending rst, srcWidth_eq_ite]
  by_cases narrow : s.regs.mode = .bypass ∧ s.regs.wsel = .w32
  · rw [if_pos narrow, decide_eq_true narrow]
    rfl
  · rw [if_neg narrow, decide_eq_false narrow]
    rfl

end

end Sys2Proof.Machine
end

section
/-! The obligations on errors, FAULT and the pins. -/

namespace Sys2Proof.Machine

/-- Settles O36: a refused command touches nothing, and the only other error is the guard's. -/
theorem errorsChangeNoRegister : Obligations.ErrorsChangeNoRegister := by
  intro s t r rst h responds error
  rcases step_outcome rst h with refused | quiet | ⟨n, -, raised⟩
  · obtain ⟨st, ne, answered⟩ := refused.answered
    obtain rfl := Phase.respond.inj (responds.symm.trans answered)
    exact ⟨rfl, rfl, fun _ => ⟨refused.regs, refused.requests, refused.answers⟩, fun corrupt => absurd corrupt ne⟩
  · exact absurd (quiet.ok r responds) error
  · obtain rfl := Phase.respond.inj (responds.symm.trans raised.answered)
    exact ⟨rfl, rfl, fun ne => absurd rfl ne, fun _ => raised.regs⟩

/-- Settles O37: the guard fires at the first extraction that reaches its limit, and the invariant keeps the limit ahead. -/
theorem onlyTheGuardSetsFault : Obligations.OnlyTheGuardSetsFault := by
  intro s t inv h unfaulted wrong
  cases rst : s.rst with
  | true =>
    obtain rfl := Host.Outcome.next.inj ((step_reset rst).symm.trans h)
    simp [Regs.reset] at wrong
  | false =>
    rcases step_outcome rst h with refused | quiet | ⟨n, draws, raised⟩
    · obtain ⟨st, ne, answered⟩ := refused.answered
      simp [refused.regs, unfaulted, answered, ne] at wrong
    · rcases wrong with fault | ⟨r, responds, corrupt⟩
      · simp [quiet.fault, unfaulted] at fault
      · simp [quiet.ok r responds] at corrupt
    · have ahead : n + 1 ≤ s.params.guardLimit := inv.lt_guardLimit draws raised.mode raised.guard
      exact ⟨raised.mode, raised.guard, raised.fault, raised.answered, raised.iter.trans (max_eq_right ahead),
        inv.accepts_or_waits draws⟩

/-- Settles O38, by what a step can have to do with errors, and by the checks of CFG and NEXT. -/
theorem faultIsStickyUntilReset : Obligations.FaultIsStickyUntilReset := by
  intro s t faulted h
  refine ⟨fun rst => ?_, fun rst => ?_, fun rst idle => ?_⟩
  · obtain rfl := Host.Outcome.next.inj ((step_reset rst).symm.trans h)
    rfl
  · rcases step_outcome rst h with refused | quiet | ⟨n, -, raised⟩
    · rw [refused.regs, faulted]
    · rw [quiet.fault, faulted]
    · exact raised.fault
  · have answers : ∀ (i : Instr) (rest : List Command), s.Accepting i rest → (i = .next ∨ ∃ w r, i = cfgInstr w r) →
        t.phase = .respond ⟨.faulted, 0, 0⟩ := fun i rest accepting checked => by
      rw [step_of_accepting accepting, exec_of_faulted (s := { s with cmds := rest }) faulted checked] at h
      exact Host.Outcome.next.inj h ▸ rfl
    rcases step_cases h with ⟨reset, -⟩ | ⟨-, -, c, rest, -, accepted⟩ | ⟨-, waits, -⟩ | ⟨-, ⟨r, phase, -⟩, -⟩ |
      ⟨-, running, -⟩
    · simp [rst] at reset
    · obtain ⟨st, d, a, rfl⟩ := acceptCommand_of_faulted (s := { s with cmds := rest }) faulted accepted
      exact ⟨rfl, rfl, rfl, answers⟩
    · simp [idle] at waits
    · simp [idle] at phase
    · simp [idle] at running

/-- Settles O20, by NEXT's checks. -/
theorem nextRefusesUnconfiguredOrFaulted : Obligations.NextRefusesUnconfiguredOrFaulted := fun _ =>
  ⟨execNext_of_faulted, execNext_of_unconfigured⟩

/-- Settles O55, pin by pin. -/
theorem outputsFollowTheState : Obligations.OutputsFollowTheState := by
  refine ⟨fun _ => rfl, fun s rst => ?_, rfl, rfl, rfl, rfl, rfl, rfl⟩
  refine ⟨srcReq_eq_srcPending rst, cmdReady_iff_idle rst, rspValid_iff_responds rst, fun ⟨ready, valid⟩ => ?_,
    fun r responds => ?_, ?_, ?_⟩
  · obtain ⟨r, responds⟩ := (rspValid_iff_responds rst).1 valid
    simp [(cmdReady_iff_idle rst).1 ready] at responds
  · simp [rspStatus, rspData, rspAux, rspOnPort_of_respond rst responds]
  · simp [srcW64_eq_ite rst]
  · simp [srcW64_eq_ite rst, imp_iff_not_or]

end Sys2Proof.Machine
end

section
/-! SUPPORT. The waits in which a step has no next state (70_reset R291, R301, R302; log 3). -/

namespace Sys2Proof.Machine

/-- The agent outside the engine that `s` waits for, by the fault that names it. -/
inductive Waits (s : State) : Fault → Prop where
  /-- IDLE, and the host presents no command (70_reset R291). -/
  | command (rst : s.rst = false) (idle : s.phase = .idle) (unpresented : s.cmds = []) : Waits s .awaitCommand
  /-- RESPOND, and the host does not take the response (70_reset R301). -/
  | response (rst : s.rst = false) (r : Response) (responds : s.phase = .respond r) (unready : s.rspReady = false) :
      Waits s .awaitResponseTaken
  /-- SRCWAIT, and the BitSource answers no pending request (70_reset R302). -/
  | bitSource (rst : s.rst = false) (waits : s.phase = .srcwait) (unanswered : s.srcPending = false ∨ s.answers = []) :
      Waits s .awaitBitSource

section
variable {s : State} (rst : s.rst = false)
include rst

theorem step_idle_unpresented (idle : s.phase = .idle) (unpresented : s.cmds = []) : step s = .fault .awaitCommand := by
  simp [step, rst, phaseStep, idle, idleStep, unpresented]

theorem step_srcwait_unanswered (waits : s.phase = .srcwait) (unanswered : s.srcPending = false ∨ s.answers = []) :
    step s = .fault .awaitBitSource := by
  cases pending : s.srcPending with
  | false => simp [step, rst, phaseStep, waits, srcwaitStep, pending]
  | true =>
    have silent : s.answers = [] := unanswered.resolve_left (by simp [pending])
    simp [step, rst, phaseStep, waits, srcwaitStep, pending, silent]

end

theorem Waits.step_eq {s : State} {f : Fault} (waits : Waits s f) : step s = .fault f := by
  cases waits with
  | command rst idle unpresented => exact step_idle_unpresented rst idle unpresented
  | response rst r responds unready => exact step_respond_held rst responds unready
  | bitSource rst waits unanswered => exact step_srcwait_unanswered rst waits unanswered

theorem acceptCommand_answers_next (c : Command) (s : State) : ∃ t, acceptCommand c s = .next t := by
  rcases acceptCommand_cases c s with ⟨i, -, h⟩ | ⟨e, -, h⟩ <;> rw [h]
  · exact exec_answers_next i s
  · exact ⟨_, rfl⟩

theorem step_next_or_waits (s : State) : (∃ t, step s = .next t) ∨ ∃ f, Waits s f := by
  cases rst : s.rst with
  | true => exact .inl ⟨_, step_reset rst⟩
  | false =>
    cases phase : s.phase with
    | idle =>
      cases port : s.cmds with
      | nil => exact .inr ⟨_, .command rst phase port⟩
      | cons c rest => exact .inl (step_idle rst phase port ▸ acceptCommand_answers_next c _)
    | srcwait =>
      cases pending : s.srcPending with
      | false => exact .inr ⟨_, .bitSource rst phase (.inl pending)⟩
      | true =>
        cases answered : s.answers with
        | nil => exact .inr ⟨_, .bitSource rst phase (.inr answered)⟩
        | cons w rest => exact .inl ⟨_, step_srcwait rst phase pending answered⟩
    | respond r =>
      cases ready : s.rspReady with
      | false => exact .inr ⟨_, .response rst r phase ready⟩
      | true => exact .inl ⟨_, step_respond rst phase ready⟩
    | extract => exact .inl ⟨_, step_running rst (.inl phase)⟩
    | arbitrate => exact .inl ⟨_, step_running rst (.inr phase)⟩

theorem step_eq_fault_iff {s : State} {f : Fault} : step s = .fault f ↔ Waits s f := by
  refine ⟨fun h => ?_, Waits.step_eq⟩
  rcases step_next_or_waits s with ⟨t, next⟩ | ⟨g, waits⟩
  · exact nomatch next.symm.trans h
  · exact Host.Outcome.fault.inj (waits.step_eq.symm.trans h) ▸ waits

theorem step_ne_refused (s : State) (r : Refusal) : step s ≠ .refused r := by
  rcases step_next_or_waits s with ⟨t, next⟩ | ⟨f, waits⟩
  · simp [next]
  · simp [waits.step_eq]

end Sys2Proof.Machine
end

section
/-! SUPPORT. Reset cycles (70_reset R290, R292), and what the registers read after them (R291). -/

namespace Sys2Proof.Machine

/-- An abandoned request costs the BitSource at most one word (70_reset R292). -/
theorem answersAfterReset_cases (s : State) :
    answersAfterReset s = s.answers ∨ s.srcPending = true ∧ answersAfterReset s = s.answers.tail := by
  cases pending : s.srcPending <;> cases consumed : Config.abandonedDraw s.frees <;>
    simp [answersAfterReset, pending, consumed]

/-- A further cycle with `rst = 1` does what the first one does (70_reset R290; log 11). -/
theorem step_reset_eq_hostReset {s : State} (rst : s.rst = true) : step s = .next (hostReset true s) := by
  have held : resetCycle s = hostReset true s := congrArg (fun level => { resetCycle s with rst := level }) rst
  rw [step_reset rst, held]

theorem readRegister_reset {i : Word} (named : i.toNat ≤ 4) : readRegister i Regs.reset = some 0 := by
  unfold readRegister
  interval_cases i.toNat <;> rfl

end Sys2Proof.Machine
end

section
/-! The obligations on the waits, the command port, the parameters and reset. -/

namespace Sys2Proof.Machine

/-- Settles O40: a step answers a next state, or names the agent it waits for. -/
theorem stepStopsOnlyInWaits : Obligations.StepStopsOnlyInWaits := by
  refine fun s => ⟨step_eq_fault_iff.trans ⟨?_, ?_⟩, step_eq_fault_iff.trans ⟨?_, ?_⟩, step_eq_fault_iff.trans ⟨?_, ?_⟩,
    step_ne_refused s⟩
  · exact fun | .command rst idle unpresented => ⟨rst, idle, unpresented⟩
  · exact fun ⟨rst, idle, unpresented⟩ => .command rst idle unpresented
  · exact fun | .response rst r responds unready => ⟨rst, ⟨r, responds⟩, unready⟩
  · exact fun ⟨rst, ⟨r, responds⟩, unready⟩ => .response rst r responds unready
  · exact fun | .bitSource rst waits unanswered => ⟨rst, waits, unanswered⟩
  · exact fun ⟨rst, waits, unanswered⟩ => .bitSource rst waits unanswered

/-- Settles O42: only the step that accepts a command touches the port, and it starts where `cmd_ready` is 1. -/
theorem commandsAreTakenOnlyWhenReady : Obligations.CommandsAreTakenOnlyWhenReady := by
  intro s t h
  refine ⟨by simp [cmdReady], ?_⟩
  rcases step_cases h with ⟨reset, rfl⟩ | ⟨rst, idle, c, rest, port, accepted⟩ | ⟨-, waits, -, w, rest, -, rfl⟩ |
    ⟨-, ⟨r, responds, rfl⟩, -⟩ | ⟨-, running, rfl⟩
  · simp [cmdReady, reset]
  · simp [cmdReady, rst, idle, port, (acceptCommand_samePins accepted).cmds]
  · exact ⟨by simp [cmdReady, waits], fun _ => (takeAnswer_samePins w { s with answers := rest }).cmds⟩
  · simp [cmdReady, responds]
  · rcases running with phase | phase <;> simp [cmdReady, phase, (runPhases_samePins phaseFuel s).cmds]

/-- Settles O46: no step writes the parameters, whatever it does. -/
theorem parametersAreFixed : Obligations.ParametersAreFixed := by
  intro s t h
  rcases step_cases h with ⟨-, rfl⟩ | ⟨-, -, c, rest, -, accepted⟩ | ⟨-, -, -, w, rest, -, rfl⟩ | ⟨-, ⟨r, -, rfl⟩, -⟩ |
    ⟨-, -, rfl⟩
  · exact resetCycle_params s
  · exact (acceptCommand_samePins accepted).params
  · exact (takeAnswer_samePins w { s with answers := rest }).params
  · exact deliver_params r s
  · exact (runPhases_samePins phaseFuel s).params

/-- Settles O50: every cycle with `rst = 1` is the same reset cycle, and out of reset FAULT stays (O38). -/
theorem resetCycleClearsTheEngine : Obligations.ResetCycleClearsTheEngine := by
  unfold Obligations.ResetCycleClearsTheEngine
  intro cleared
  have first (s : State) : cleared s (hostReset true s) :=
    ⟨rfl, rfl, rfl, rfl, rfl, rfl, rfl, rfl, rfl, rfl, answersAfterReset_cases s, rfl, rfl, rfl, rfl, rfl⟩
  refine ⟨first, fun s rst => ⟨_, step_reset_eq_hostReset rst, first s⟩, fun s t h faulted unfaulted => ?_⟩
  obtain ⟨-, stays, -⟩ := faultIsStickyUntilReset s t faulted h
  by_contra released
  exact absurd (stays (Bool.eq_false_of_not_eq_true released)) (by simp [unfaulted])

/-- Settles O51: the views of the reset registers are 0, and CFG_VALID is one of them. -/
theorem registersReadZeroAfterReset : Obligations.RegistersReadZeroAfterReset :=
  ⟨fun _ named => exec_rdreg_of_some (readRegister_reset named), execNext_of_unconfigured rfl rfl⟩

end Sys2Proof.Machine
end
